-- ==== Sys2Proof/Word.lean ====
section
/-! DEFINITION. Word.lean: the words of the part and their plainest operations: bytes, 64 B lines, identifiers (00_scope.md R3, R8; 01_module_overview.md R21). -/

namespace Sys2Proof

/-- One byte. -/
abbrev Byte := BitVec 8
/-- One 64 B line, byte 0 in bits 7:0 (R9, R83). -/
abbrev Line := BitVec 512
/-- A core position, 8*y + x (R3). -/
abbrev CoreId := Fin 64
/-- A partition, 0-7 (R309). -/
abbrev PartId := Fin 8
/-- A matrix engine M0-M3 (R21). -/
abbrev EngId := Fin 4
/-- A fabric port (R354). -/
abbrev PortId := Fin 8

/-- Sparse data of width w: (key, value) pairs, keys strictly rising, no zero value. -/
abbrev Sparse (w : Nat) := List (Nat × BitVec w)

end Sys2Proof
end

