-- ==== Sys2Proof/Syntax.lean ====
section
/-! DEFINITION. Syntax.lean: the commands, one constructor per row of spec/opcode_table.json, in the table's order, and the types of their operands. The table gives its rows no operands: they are the model's (DESIGN CHOICE, log 3). A slot instruction carries the core (and matrix engine) it issues in and its slot's bits below the opcode, as its chapter's encoding gives them (R60, R113, R165, R194, R244). -/

namespace Sys2Proof

/-- What the error check of one read finds (R86, R102, R206): the environment supplies it. The words corrected; in a line that has uncorrectable words, how many those are and how many others were corrected. -/
inductive EccResult where
  | clean
  | corrected (words : Nat)
  | uncorrectable (bad fixed : Nat)
  deriving DecidableEq, Repr

/-- The line holds an uncorrectable word. -/
def EccResult.failed : EccResult → Bool
  | .uncorrectable _ _ => true
  | _ => false

/-- What the checks find of the two lines that a turn on the indexed path may read (R232): the packed line and the table's. -/
structure TurnEcc where
  packed : EccResult
  table : EccResult
  deriving DecidableEq, Repr

/-- An offset in a function's BAR0 (R342): function 0 is PF0, 1 to 64 the virtual functions. -/
structure BarOffset where
  fn : Nat
  off : BitVec 26
  deriving DecidableEq, Repr

/-- Who requests a control action (R393, CTRL_REFUSED). -/
inductive Requester where
  | host
  | fabric
  | mctp
  deriving DecidableEq, Repr

/-- An assize image: its length in bytes and its non-zero bytes (R306). -/
structure Image where
  len : Nat
  bytes : Sparse 8
  deriving DecidableEq, Repr

/-- One slot of a fabric flit: a 16 B header and 64 B of payload (R356); header bit 0 is bit 0 of byte 0. -/
structure FabSlot where
  hdr : BitVec 128
  payload : Line
  deriving DecidableEq, Repr

/-- The fields of a fabric flit (R355); Machine/Link.lean lays out its 256 bytes. -/
structure Flit where
  epoch : BitVec 8
  seq : BitVec 12
  ackSeq : BitVec 12
  av : Bool
  rnak : Bool
  ft : BitVec 2
  ck : BitVec 4
  ccnt : BitVec 8
  slots : List FabSlot
  deriving DecidableEq, Repr

/-- A command in a management-command slot (R361): the code of MGR_ASZ_CMD, its partitions, and for LOAD and ARM the address of the image in the manager module and the image that the worker's line reads find there. -/
structure ManagementCommand where
  cmd : BitVec 4
  pmask : BitVec 8
  addr : BitVec 48
  img : Image
  deriving DecidableEq, Repr

/-- The stamps of one time-alignment exchange (R362), in ns. -/
structure TimeStamps where
  t1 : BitVec 64
  t2 : BitVec 64
  t3 : BitVec 64
  t4 : BitVec 64
  corr : BitVec 64
  deriving DecidableEq, Repr

/-- What the owner module has answered to a part of an owner-table move (R238, R274): nothing yet, the lines read, that the lines are written, a stale version, a lost epoch. -/
inductive OwnerAnswer where
  | pending
  | lines (ls : List Line)
  | done
  | stale
  | epoch
  deriving DecidableEq, Repr

/-- A host access to a memory window (R346). -/
inductive WindowAccess where
  | read (len : Nat)
  | write (data : List Byte)
  deriving DecidableEq, Repr

/-- A crossing that cannot reach 3 c (R30): the receiving core region and its side (R393). -/
structure AlignFault where
  core : CoreId
  side : Fin 5
  deriving DecidableEq, Repr

/-- The calibration set (R338): MAGIC, ORIGIN is user, CRC right, CRC value, contents. -/
structure CalSet where
  magic : BitVec 32
  user : Bool
  crcOk : Bool
  crc : BitVec 32
  body : Sparse 8
  deriving DecidableEq, Repr

/-- Whether a calibration set has its magic. -/
def CalSet.magicOk (c : CalSet) : Bool := c.magic == 0x4C414343

/-- What a cold boot finds (R330, R371): straps, tamper loop, storage indicator, which firmware banks verify (the active one, the other), whether its flash gives back the magic and the CRC of the stored calibration set, a crossing that fails. -/
structure BootFindings where
  straps : BitVec 2
  tamperOpen : Bool
  storageTripped : Bool
  bankOk : Bool × Bool
  calOk : Bool × Bool
  align : Option AlignFault
  deriving DecidableEq, Repr

/-- Sensor readings in degrees C (R336): compute die, HBM stacks 0-5, manager die, power stage. -/
structure SensorReadings where
  compute : BitVec 8
  hbm : Vector (BitVec 8) 6
  mgr : BitVec 8
  stage : BitVec 8
  deriving DecidableEq, Repr

/-- A manager firmware image offered over PLDM (R364, R374): its version, whether it verifies, whether it is marked for evaluation. -/
structure FirmwareImage where
  version : BitVec 16
  verified : Bool
  evaluation : Bool
  deriving DecidableEq, Repr

/-- The key that a command's token is signed with (R375, R396): none that the part knows, the private key that matches the assize verification key, one that chains to the Nerile root key. -/
inductive TokenKey where
  | unknown
  | assize
  | root
  deriving DecidableEq, Repr

/-- What the part finds in a command's token (R375, R396): whether its signature verifies, the key it is signed with, the device and the session nonce that it names. The spec gives a token no layout (DESIGN CHOICE, log 42). -/
structure Token where
  verifies : Bool
  key : TokenKey
  device : BitVec 64
  nonce : BitVec 256
  deriving DecidableEq, Repr

/-- What LC_PROVISION's token carries (R375): the assize verification key, x coordinate above y, and the alarm policy. -/
structure Provisioning where
  key : BitVec 768
  policy : BitVec 15
  deriving DecidableEq, Repr

/-- A CAL_READ (R339, R365): whether it comes in the secured session, and the offset of the piece it asks for. -/
structure CalRequest where
  sec : Bool
  off : Nat
  deriving DecidableEq, Repr

/-- A piece of a CAL_WRITE (R339, R365): its offset and its bytes. -/
structure CalPiece where
  off : Nat
  bytes : List Byte
  deriving DecidableEq, Repr

/-- A flit on the die-to-die link as its receiver finds it (R386): whether it goes to the compute die, its number in that direction (a replay has its flit's), whether its CRC holds after correction. -/
structure D2dFlit where
  down : Bool
  num : Nat
  crcOk : Bool
  deriving DecidableEq, Repr

/-- The commands of the part: the rows of the opcode table. -/
inductive Instr where
  /-- BUNDLE_ISSUE (R28): In each compute cycle in which the partition is not held, every core of the partition issues one bundle and its issue count advances. -/
  | bundleIssue (p : PartId) (errs : List (Nat × EccResult))
  /-- NOP (R54): The no-operation of a slot changes no state. -/
  | nop (core : CoreId) (slot : Fin 8)
  /-- HALT (R72): The HALT instruction halts the core with a reason derived from its code. -/
  | halt (core : CoreId) (w : BitVec 40)
  /-- FIN (R69): FIN marks the core finished; from the next cycle the core issues empty bundles. -/
  | fin (core : CoreId) (w : BitVec 40)
  /-- CSET (R60): Sets counter Cd to an immediate. -/
  | cset (core : CoreId) (w : BitVec 40)
  /-- CADD (R60): Sets Cd to Cs plus an immediate, modulo 2^32. -/
  | cadd (core : CoreId) (w : BitVec 40)
  /-- CADDC (R60): Sets Cd to Cs plus Ct, modulo 2^32. -/
  | caddc (core : CoreId) (w : BitVec 40)
  /-- PSETL (R60): Sets the low 32 bits of pointer Pd. -/
  | psetl (core : CoreId) (w : BitVec 40)
  /-- PSETH (R60): Sets the high 16 bits of pointer Pd. -/
  | pseth (core : CoreId) (w : BitVec 40)
  /-- PADD (R60): Sets Pd to Ps plus a sign-extended immediate, modulo 2^48. -/
  | padd (core : CoreId) (w : BitVec 40)
  /-- PMAC (R60): Sets Pd to Ps plus Ct times a sign-extended immediate, modulo 2^48. -/
  | pmac (core : CoreId) (w : BitVec 40)
  /-- KCMPC (R60): Sets flag Kd to a comparison of Cs with an immediate. -/
  | kcmpc (core : CoreId) (w : BitVec 40)
  /-- KCMPCC (R60): Sets flag Kd to a comparison of two counters. -/
  | kcmpcc (core : CoreId) (w : BitVec 40)
  /-- KCMPP (R60): Sets flag Kd to a comparison of two pointers. -/
  | kcmpp (core : CoreId) (w : BitVec 40)
  /-- KSET (R60): Sets flag Kd to a value. -/
  | kset (core : CoreId) (w : BitVec 40)
  /-- KOP (R60): Sets flag Kd to a logical operation on two flags. -/
  | kop (core : CoreId) (w : BitVec 40)
  /-- BR (R63): Branches unconditionally to a relative target after two delay bundles. -/
  | br (core : CoreId) (w : BitVec 40)
  /-- BK (R63): Branches to a relative target if Ks equals v, after two delay bundles. -/
  | bk (core : CoreId) (w : BitVec 40)
  /-- BP (R64): Branches to the address in Ps after two delay bundles. -/
  | bp (core : CoreId) (w : BitVec 40)
  /-- REP (R65): Opens a hardware repeat level over the next L bundles, Cs times. -/
  | rep (core : CoreId) (w : BitVec 40)
  /-- SLUICE_HOLD_START (R35): After bundle d − 1 issues, every core of the partition holds before bundle d. -/
  | sluiceHoldStart (p : PartId)
  /-- HELD_CYCLE (R40): In each held cycle, the total hold count and exactly one cause count increment. -/
  | heldCycle (p : PartId)
  /-- HOLD_RELEASE (R37): Bundle d issues in every core 8 c after the first cycle without a hold cause. -/
  | holdRelease (p : PartId)
  /-- SCHN (R192): Starts a chain of descriptors in a chain slot, or latches it if the slot is busy. -/
  | schn (core : CoreId) (w : BitVec 88)
  /-- CHAIN_LATCH_START (R191): A chain waiting in a start latch starts when its slot frees. -/
  | chainLatchStart (core : CoreId) (slot : Fin 16)
  /-- DESCRIPTOR_LINE_READ (R193): The stream engine reads a 64 B line of the descriptor list in its planned cycle. -/
  | descriptorLineRead (core : CoreId) (slot : Fin 16) (ecc : EccResult)
  /-- BLOCK_ISSUE (R188): A block issues at its planned issue count when a scoreboard range is free. -/
  | blockIssue (core : CoreId) (slot : Fin 16)
  /-- BLOCK_LAG_ISSUE (R189): A block that found no free range issues late in the first cycle in which a range frees. -/
  | blockLagIssue (core : CoreId)
  /-- STILE (R194): Issues one TILE block from the stream slot, loading or storing a tile. -/
  | stile (core : CoreId) (w : BitVec 88)
  /-- STTX1 (R223): Transposing tile move with 1-byte elements. -/
  | sttx1 (core : CoreId) (w : BitVec 88)
  /-- STTX2 (R223): Transposing tile move with 2-byte elements. -/
  | sttx2 (core : CoreId) (w : BitVec 88)
  /-- STTX4 (R223): Transposing tile move with 4-byte elements. -/
  | sttx4 (core : CoreId) (w : BitVec 88)
  /-- SREF (R214): Enters one scheduled refresh into the queue of each named pseudo-channel. -/
  | sref (core : CoreId) (w : BitVec 88)
  /-- LINE_ACCESS (R204): At a line's access cycle, the source is read or a request is sent. -/
  | lineAccess (core : CoreId) (blk : Nat) (ecc : EccResult)
  /-- LINE_ARRIVAL (R204): A line reaches the stream engine. -/
  | lineArrival (core : CoreId) (blk : Nat)
  /-- LINE_WRITE (R204): A line is written to its destination, or sent towards it. -/
  | lineWrite (core : CoreId) (blk : Nat)
  /-- LATE_SOURCE_ACCESS (R211): A lagging block's source access is made in the first cycle with an idle slot or free links. -/
  | lateSourceAccess (core : CoreId) (blk : Nat) (ecc : EccResult)
  /-- LATE_LINE_WRITE (R211): A late line is written in the first cycle with an idle write slot or tile bank. -/
  | lateLineWrite (core : CoreId) (blk : Nat)
  /-- STAGING_FREE_SEND (R210): An excess HBM line request is sent when a staging entry frees. -/
  | stagingFreeSend (core : CoreId)
  /-- TRANSPOSE_LINE_RELEASE (R222): A destination line of a transposition tile is released from staging. -/
  | transposeLineRelease (core : CoreId) (blk : Nat)
  /-- QUADRANT_LINE_RELEASE (R224): A line of a transposing tile move's quadrant is released. -/
  | quadrantLineRelease (core : CoreId) (blk : Nat)
  /-- MXS_LINE_RELEASE (R228): An element or scale line of an MXS split is released after its last source line arrives. -/
  | mxsLineRelease (core : CoreId) (blk : Nat)
  /-- INDEX_LINE_READ (R231): An index line of a gather or scatter is read. -/
  | indexLineRead (core : CoreId) (blk : Nat) (ecc : EccResult)
  /-- INDEX_EXAMINE (R231): The indices of a line are examined in position order and out-of-range indices are skipped, clamped or faulted. -/
  | indexExamine (core : CoreId) (blk : Nat)
  /-- GATHER_TURN (R232): A line of an indexed block takes its turn on the indexed path. -/
  | gatherTurn (core : CoreId) (blk : Nat) (ecc : TurnEcc)
  /-- INDEXED_WRITE (R232): A gather or scatter line write is performed in the first idle slot. -/
  | indexedWrite (core : CoreId) (blk : Nat)
  /-- HBM_QUEUE_ENTRY (R208): A request or refresh enters a pseudo-channel queue. -/
  | hbmQueueEntry (stack : Fin 6) (idx : Fin 64)
  /-- HBM_REQUEST_START (R209): The controller starts serving the next request of a queue. -/
  | hbmRequestStart (stack : Fin 6) (idx : Fin 64)
  /-- HBM_READ_READY (R209): A read's data reaches the controller's return staging. -/
  | hbmReadReady (stack : Fin 6) (idx : Fin 64) (ecc : EccResult)
  /-- HBM_WRITE_DONE (R209): A write finishes 2.0 ns after its start. -/
  | hbmWriteDone (stack : Fin 6) (idx : Fin 64)
  /-- NORMAL_REFRESH (R213): The controller refreshes a pseudo-channel by itself at its interval. -/
  | normalRefresh (stack : Fin 6) (idx : Fin 64)
  /-- SAFETY_NET_REFRESH (R215): A pseudo-channel reaches its deadline without a refresh, and the safety net inserts one. -/
  | safetyNetRefresh (stack : Fin 6) (idx : Fin 64)
  /-- REFRESH_DONE (R209): A refresh frees its pseudo-channel 96 ns after its start. -/
  | refreshDone (stack : Fin 6) (idx : Fin 64)
  /-- SCRUB_READ (R89): The scrubber reads the next weight-class line in an idle read slot. -/
  | scrubRead (core : CoreId) (ecc : EccResult)
  /-- SCRUB_WRITEBACK (R89): A corrected line is written back in the next idle write slot. -/
  | scrubWriteback (core : CoreId)
  /-- MMA_I8_I8 (R115): Dense INT8·INT8 matrix operation. -/
  | mmaI8I8 (core : CoreId) (eng : EngId) (w : BitVec 56)
  /-- MMA_I8_I4 (R115): Dense mixed INT8·INT4 matrix operation. -/
  | mmaI8I4 (core : CoreId) (eng : EngId) (w : BitVec 56)
  /-- MMA_I4_I8 (R115): Dense mixed INT4·INT8 matrix operation. -/
  | mmaI4I8 (core : CoreId) (eng : EngId) (w : BitVec 56)
  /-- MMA_I4_I4 (R115): Dense split INT4·INT4 matrix operation. -/
  | mmaI4I4 (core : CoreId) (eng : EngId) (w : BitVec 56)
  /-- MMA_E4_E4 (R115): Dense FP8 E4M3·E4M3 matrix operation. -/
  | mmaE4E4 (core : CoreId) (eng : EngId) (w : BitVec 56)
  /-- MMA_E4_E5 (R115): Dense E4M3·E5M2 matrix operation. -/
  | mmaE4E5 (core : CoreId) (eng : EngId) (w : BitVec 56)
  /-- MMA_E5_E4 (R115): Dense E5M2·E4M3 matrix operation. -/
  | mmaE5E4 (core : CoreId) (eng : EngId) (w : BitVec 56)
  /-- MMA_E5_E5 (R115): Dense E5M2·E5M2 matrix operation. -/
  | mmaE5E5 (core : CoreId) (eng : EngId) (w : BitVec 56)
  /-- MMA_E4_F4 (R115): Dense mixed E4M3·FP4 matrix operation. -/
  | mmaE4F4 (core : CoreId) (eng : EngId) (w : BitVec 56)
  /-- MMA_F4_E4 (R115): Dense mixed FP4·E4M3 matrix operation. -/
  | mmaF4E4 (core : CoreId) (eng : EngId) (w : BitVec 56)
  /-- MMA_E5_F4 (R115): Dense mixed E5M2·FP4 matrix operation. -/
  | mmaE5F4 (core : CoreId) (eng : EngId) (w : BitVec 56)
  /-- MMA_F4_E5 (R115): Dense mixed FP4·E5M2 matrix operation. -/
  | mmaF4E5 (core : CoreId) (eng : EngId) (w : BitVec 56)
  /-- MMA_F4_F4 (R115): Dense split FP4·FP4 matrix operation. -/
  | mmaF4F4 (core : CoreId) (eng : EngId) (w : BitVec 56)
  /-- MMA_BF16 (R122): Dense BF16 matrix operation in one pass. -/
  | mmaBf16 (core : CoreId) (eng : EngId) (w : BitVec 56)
  /-- MMA_FP16 (R123): Dense FP16 matrix operation in four limb passes. -/
  | mmaFp16 (core : CoreId) (eng : EngId) (w : BitVec 56)
  /-- MMA_FP32 (R124): Dense FP32 matrix operation in nine limb passes. -/
  | mmaFp32 (core : CoreId) (eng : EngId) (w : BitVec 56)
  /-- CMMA_I8 (R125): Complex INT8 matrix operation in four passes. -/
  | cmmaI8 (core : CoreId) (eng : EngId) (w : BitVec 56)
  /-- CMMA_E4 (R125): Complex E4M3 matrix operation in four passes. -/
  | cmmaE4 (core : CoreId) (eng : EngId) (w : BitVec 56)
  /-- CMMA_E5 (R125): Complex E5M2 matrix operation in four passes. -/
  | cmmaE5 (core : CoreId) (eng : EngId) (w : BitVec 56)
  /-- SMMA4_I8_I8 (R128): 4:8 sparse INT8·INT8 matrix operation. -/
  | smma4I8I8 (core : CoreId) (eng : EngId) (w : BitVec 56)
  /-- SMMA4_I8_I4 (R128): 4:8 sparse INT8·INT4 matrix operation. -/
  | smma4I8I4 (core : CoreId) (eng : EngId) (w : BitVec 56)
  /-- SMMA4_I4_I8 (R128): 4:8 sparse INT4·INT8 matrix operation. -/
  | smma4I4I8 (core : CoreId) (eng : EngId) (w : BitVec 56)
  /-- SMMA4_I4_I4 (R128): 4:8 sparse INT4·INT4 matrix operation. -/
  | smma4I4I4 (core : CoreId) (eng : EngId) (w : BitVec 56)
  /-- SMMA4_E4_E4 (R128): 4:8 sparse E4M3·E4M3 matrix operation. -/
  | smma4E4E4 (core : CoreId) (eng : EngId) (w : BitVec 56)
  /-- SMMA4_E4_E5 (R128): 4:8 sparse E4M3·E5M2 matrix operation. -/
  | smma4E4E5 (core : CoreId) (eng : EngId) (w : BitVec 56)
  /-- SMMA4_E5_E4 (R128): 4:8 sparse E5M2·E4M3 matrix operation. -/
  | smma4E5E4 (core : CoreId) (eng : EngId) (w : BitVec 56)
  /-- SMMA4_E5_E5 (R128): 4:8 sparse E5M2·E5M2 matrix operation. -/
  | smma4E5E5 (core : CoreId) (eng : EngId) (w : BitVec 56)
  /-- SMMA4_E4_F4 (R128): 4:8 sparse E4M3·FP4 matrix operation. -/
  | smma4E4F4 (core : CoreId) (eng : EngId) (w : BitVec 56)
  /-- SMMA4_F4_E4 (R128): 4:8 sparse FP4·E4M3 matrix operation. -/
  | smma4F4E4 (core : CoreId) (eng : EngId) (w : BitVec 56)
  /-- SMMA4_E5_F4 (R128): 4:8 sparse E5M2·FP4 matrix operation. -/
  | smma4E5F4 (core : CoreId) (eng : EngId) (w : BitVec 56)
  /-- SMMA4_F4_E5 (R128): 4:8 sparse FP4·E5M2 matrix operation. -/
  | smma4F4E5 (core : CoreId) (eng : EngId) (w : BitVec 56)
  /-- SMMA4_F4_F4 (R128): 4:8 sparse FP4·FP4 matrix operation. -/
  | smma4F4F4 (core : CoreId) (eng : EngId) (w : BitVec 56)
  /-- SMMA2_I8_I8 (R128): 2:8 sparse INT8·INT8 matrix operation. -/
  | smma2I8I8 (core : CoreId) (eng : EngId) (w : BitVec 56)
  /-- SMMA2_I8_I4 (R128): 2:8 sparse INT8·INT4 matrix operation. -/
  | smma2I8I4 (core : CoreId) (eng : EngId) (w : BitVec 56)
  /-- SMMA2_I4_I8 (R128): 2:8 sparse INT4·INT8 matrix operation. -/
  | smma2I4I8 (core : CoreId) (eng : EngId) (w : BitVec 56)
  /-- SMMA2_I4_I4 (R128): 2:8 sparse INT4·INT4 matrix operation. -/
  | smma2I4I4 (core : CoreId) (eng : EngId) (w : BitVec 56)
  /-- SMMA2_E4_E4 (R128): 2:8 sparse E4M3·E4M3 matrix operation. -/
  | smma2E4E4 (core : CoreId) (eng : EngId) (w : BitVec 56)
  /-- SMMA2_E4_E5 (R128): 2:8 sparse E4M3·E5M2 matrix operation. -/
  | smma2E4E5 (core : CoreId) (eng : EngId) (w : BitVec 56)
  /-- SMMA2_E5_E4 (R128): 2:8 sparse E5M2·E4M3 matrix operation. -/
  | smma2E5E4 (core : CoreId) (eng : EngId) (w : BitVec 56)
  /-- SMMA2_E5_E5 (R128): 2:8 sparse E5M2·E5M2 matrix operation. -/
  | smma2E5E5 (core : CoreId) (eng : EngId) (w : BitVec 56)
  /-- SMMA2_E4_F4 (R128): 2:8 sparse E4M3·FP4 matrix operation. -/
  | smma2E4F4 (core : CoreId) (eng : EngId) (w : BitVec 56)
  /-- SMMA2_F4_E4 (R128): 2:8 sparse FP4·E4M3 matrix operation. -/
  | smma2F4E4 (core : CoreId) (eng : EngId) (w : BitVec 56)
  /-- SMMA2_E5_F4 (R128): 2:8 sparse E5M2·FP4 matrix operation. -/
  | smma2E5F4 (core : CoreId) (eng : EngId) (w : BitVec 56)
  /-- SMMA2_F4_E5 (R128): 2:8 sparse FP4·E5M2 matrix operation. -/
  | smma2F4E5 (core : CoreId) (eng : EngId) (w : BitVec 56)
  /-- SMMA2_F4_F4 (R128): 2:8 sparse FP4·FP4 matrix operation. -/
  | smma2F4F4 (core : CoreId) (eng : EngId) (w : BitVec 56)
  /-- LMMA_I8_I8 (R141): Legacy dense INT8·INT8 matrix operation. -/
  | lmmaI8I8 (core : CoreId) (eng : EngId) (w : BitVec 56)
  /-- LMMA_I8_I4 (R141): Legacy dense INT8·INT4 matrix operation. -/
  | lmmaI8I4 (core : CoreId) (eng : EngId) (w : BitVec 56)
  /-- LMMA_I4_I8 (R141): Legacy dense INT4·INT8 matrix operation. -/
  | lmmaI4I8 (core : CoreId) (eng : EngId) (w : BitVec 56)
  /-- LMMA_I4_I4 (R141): Legacy dense INT4·INT4 matrix operation. -/
  | lmmaI4I4 (core : CoreId) (eng : EngId) (w : BitVec 56)
  /-- LMMA_E4_E4 (R141): Legacy dense E4M3·E4M3 matrix operation. -/
  | lmmaE4E4 (core : CoreId) (eng : EngId) (w : BitVec 56)
  /-- LMMA_E4_E5 (R141): Legacy dense E4M3·E5M2 matrix operation. -/
  | lmmaE4E5 (core : CoreId) (eng : EngId) (w : BitVec 56)
  /-- LMMA_E5_E4 (R141): Legacy dense E5M2·E4M3 matrix operation. -/
  | lmmaE5E4 (core : CoreId) (eng : EngId) (w : BitVec 56)
  /-- LMMA_E5_E5 (R141): Legacy dense E5M2·E5M2 matrix operation. -/
  | lmmaE5E5 (core : CoreId) (eng : EngId) (w : BitVec 56)
  /-- LMMA_E4_F4 (R141): Legacy dense E4M3·FP4 matrix operation. -/
  | lmmaE4F4 (core : CoreId) (eng : EngId) (w : BitVec 56)
  /-- LMMA_F4_E4 (R141): Legacy dense FP4·E4M3 matrix operation. -/
  | lmmaF4E4 (core : CoreId) (eng : EngId) (w : BitVec 56)
  /-- LMMA_E5_F4 (R141): Legacy dense E5M2·FP4 matrix operation. -/
  | lmmaE5F4 (core : CoreId) (eng : EngId) (w : BitVec 56)
  /-- LMMA_F4_E5 (R141): Legacy dense FP4·E5M2 matrix operation. -/
  | lmmaF4E5 (core : CoreId) (eng : EngId) (w : BitVec 56)
  /-- LMMA_F4_F4 (R141): Legacy dense FP4·FP4 matrix operation. -/
  | lmmaF4F4 (core : CoreId) (eng : EngId) (w : BitVec 56)
  /-- LMMA_BF16 (R141): Legacy dense BF16 matrix operation. -/
  | lmmaBf16 (core : CoreId) (eng : EngId) (w : BitVec 56)
  /-- LMMA_FP16 (R141): Legacy dense FP16 matrix operation. -/
  | lmmaFp16 (core : CoreId) (eng : EngId) (w : BitVec 56)
  /-- LMMA_FP32 (R141): Legacy dense FP32 matrix operation. -/
  | lmmaFp32 (core : CoreId) (eng : EngId) (w : BitVec 56)
  /-- LCMMA_I8 (R141): Legacy complex INT8 matrix operation. -/
  | lcmmaI8 (core : CoreId) (eng : EngId) (w : BitVec 56)
  /-- LCMMA_E4 (R141): Legacy complex E4M3 matrix operation. -/
  | lcmmaE4 (core : CoreId) (eng : EngId) (w : BitVec 56)
  /-- LCMMA_E5 (R141): Legacy complex E5M2 matrix operation. -/
  | lcmmaE5 (core : CoreId) (eng : EngId) (w : BitVec 56)
  /-- ACC_WRITE (R116): The array writes a k-cycle's or a group's result into the accumulator at its fixed latency. -/
  | accWrite (core : CoreId) (eng : EngId)
  /-- MRQL (R134): Loads 512 requantisation entries from a tile into the engine's latch. -/
  | mrql (core : CoreId) (eng : EngId) (w : BitVec 56)
  /-- MDRN (R137): Drains an accumulator chunk by chunk into the vector lanes in the selected mode. -/
  | mdrn (core : CoreId) (eng : EngId) (w : BitVec 56)
  /-- DRAIN_CHUNK_PRESENT (R137): A drain chunk is presented on its 128 lanes for one cycle, and it is lost if no bundle reads it. -/
  | drainChunkPresent (core : CoreId) (eng : EngId)
  /-- VMOV (R166): Copies operand a to Vd. -/
  | vmov (core : CoreId) (w : BitVec 56)
  /-- VMOVI (R166): Sets every lane of Vd to an immediate. -/
  | vmovi (core : CoreId) (w : BitVec 56)
  /-- VSEL (R166): Selects a or b per lane by a mask register. -/
  | vsel (core : CoreId) (w : BitVec 56)
  /-- VADD (R173): Elementwise add. -/
  | vadd (core : CoreId) (w : BitVec 56)
  /-- VSUB (R173): Elementwise subtract. -/
  | vsub (core : CoreId) (w : BitVec 56)
  /-- VMUL (R173): Elementwise multiply. -/
  | vmul (core : CoreId) (w : BitVec 56)
  /-- VFMA (R173): Fused multiply-add with one rounding. -/
  | vfma (core : CoreId) (w : BitVec 56)
  /-- VMIN (R173): Elementwise minimum. -/
  | vmin (core : CoreId) (w : BitVec 56)
  /-- VMAX (R173): Elementwise maximum. -/
  | vmax (core : CoreId) (w : BitVec 56)
  /-- VABS (R173): Clears the sign of each element. -/
  | vabs (core : CoreId) (w : BitVec 56)
  /-- VNEG (R173): Flips the sign of each element. -/
  | vneg (core : CoreId) (w : BitVec 56)
  /-- VAND (R166): Bitwise AND. -/
  | vand (core : CoreId) (w : BitVec 56)
  /-- VOR (R166): Bitwise OR. -/
  | vor (core : CoreId) (w : BitVec 56)
  /-- VXOR (R166): Bitwise XOR. -/
  | vxor (core : CoreId) (w : BitVec 56)
  /-- VSHL (R172): Shifts left by b modulo the element width. -/
  | vshl (core : CoreId) (w : BitVec 56)
  /-- VSHR (R172): Shifts logically right. -/
  | vshr (core : CoreId) (w : BitVec 56)
  /-- VSRA (R172): Shifts arithmetically right. -/
  | vsra (core : CoreId) (w : BitVec 56)
  /-- VCMP (R176): Sets mask bits by a per-lane comparison. -/
  | vcmp (core : CoreId) (w : BitVec 56)
  /-- QOP (R171): Applies a logical operation to mask registers. -/
  | qop (core : CoreId) (w : BitVec 56)
  /-- VCVT (R177): Converts between element formats. -/
  | vcvt (core : CoreId) (w : BitVec 56)
  /-- VDQ (R178): Dequantises element codes to FP32 with their scale bytes. -/
  | vdq (core : CoreId) (w : BitVec 56)
  /-- VQG (R179): Quantises FP32 values in groups, choosing each group's scale byte. -/
  | vqg (core : CoreId) (w : BitVec 56)
  /-- VSF (R180): Computes a special function on one quarter of the lanes. -/
  | vsf (core : CoreId) (w : BitVec 56)
  /-- VRED (R182): Reduces groups of lanes by a fixed tree. -/
  | vred (core : CoreId) (w : BitVec 56)
  /-- VLD (R183): Loads Vd from the own slice in the selected form. -/
  | vld (core : CoreId) (w : BitVec 56)
  /-- VST (R183): Stores a register or the drain input to the own slice. -/
  | vst (core : CoreId) (w : BitVec 56)
  /-- VFLGR (R175): Reads the sticky flags into every lane. -/
  | vflgr (core : CoreId) (w : BitVec 56)
  /-- VFLGC (R175): Clears the sticky flags. -/
  | vflgc (core : CoreId) (w : BitVec 56)
  /-- VECTOR_RESULT_WRITE (R168): A vector result is written to its register at s + L. -/
  | vectorResultWrite (core : CoreId) (errs : List (Nat × EccResult))
  /-- SSIG (R244): Adds AMT to a sync counter of the own core or of another core of the partition. TGT stands beside the low 40 bits of the slot, since its bits in the slot are the opcode's own (DEDUCED, log 12). -/
  | ssig (core tgt : CoreId) (w : BitVec 40)
  /-- SREL (R244): Subtracts AMT from an own sync counter. -/
  | srel (core : CoreId) (w : BitVec 40)
  /-- SWAIT (R248): Waits until a counter reaches AMT, then subtracts it. -/
  | swait (core : CoreId) (w : BitVec 40)
  /-- CFL (R251): Arrives at a confluence barrier and, with W = 1, waits for its completion. -/
  | cfl (core : CoreId) (w : BitVec 40)
  /-- CWT (R251): Waits for the completion of an outstanding arrival. -/
  | cwt (core : CoreId) (w : BitVec 40)
  /-- WAIT_TIMEOUT (R247): A wait whose deadline has passed completes by timeout, with K[KD] = 1. -/
  | waitTimeout (core : CoreId)
  /-- SIGNAL_ARRIVAL (R241): A remote signal takes effect at its target counter at s + 4h + 1. -/
  | signalArrival (core : CoreId)
  /-- BARRIER_ROOT_ARRIVAL (R252): A core's arrival reaches the die root and is counted. -/
  | barrierRootArrival (core : CoreId) (id : Fin 16)
  /-- BARRIER_COMPLETION_SEND (R252): The root sends the completion at r + 1. -/
  | barrierCompletionSend (p : PartId) (id : Fin 16)
  /-- BARRIER_COMPLETION_ARRIVAL (R252): The completion reaches a core and its waiting CFL or CWT completes. -/
  | barrierCompletionArrival (core : CoreId) (id : Fin 16)
  /-- SPAN_COMPLETION_DUE (R255): A spanning completion is consumed at its due count. -/
  | spanCompletionDue (p : PartId) (id : Fin 16)
  /-- MSREQ (R264): Sends a request when a request entry and a reply entry are free. -/
  | msreq (core : CoreId) (w : BitVec 40)
  /-- MRECV (R265): Takes the oldest reply or NAK from the reply queue. -/
  | mrecv (core : CoreId) (w : BitVec 40)
  /-- MTXQ (R278): Writes a message transaction staging entry. -/
  | mtxq (core : CoreId) (w : BitVec 40)
  /-- MTXC (R279): Delivers the staged entries all or none. -/
  | mtxc (core : CoreId) (w : BitVec 40)
  /-- REQUEST_ENQUEUE (R262): A request arrives at a core's inbound request queue, or is refused with NAK CLOSED. -/
  | requestEnqueue (n : Nat)
  /-- REPLY_ENQUEUE (R262): A reply or NAK enters its reserved reply entry, or is discarded at a closed core. -/
  | replyEnqueue (n : Nat)
  /-- HANDLER_DISPATCH (R267): The message unit starts the handler of the oldest eligible request. -/
  | handlerDispatch (core : CoreId)
  /-- HANDLER_SIGNAL (R268): The handler operation SSIG signals an own counter. -/
  | handlerSignal (core : CoreId)
  /-- MPUT (R268): The handler writes the request payload to a slice line. -/
  | mput (core : CoreId)
  /-- MRPLY (R268): The handler sends the request's reply with a status. -/
  | mrply (core : CoreId) (ecc : EccResult)
  /-- MAADD (R268): The handler adds the payload to a slice line as 16 words. -/
  | maadd (core : CoreId) (ecc : EccResult)
  /-- HANDLER_END (R270): The handler ends at a NOP or after operation 7, and its request entry frees. -/
  | handlerEnd (core : CoreId)
  /-- MANAGER_FORWARD (R273): The manager die forwards a request for another module onto the fabric. -/
  | managerForward (n : Nat) (port : PortId)
  /-- SOUT (R353): The manager-die service writes a session output to the host output ring. -/
  | sout (n : Nat) (errs : List (Nat × EccResult))
  /-- OTGET (R274): The manager-die service moves tensor units from owners to a local address. -/
  | otget (n : Nat) (remote : OwnerAnswer) (errs : List (Nat × EccResult))
  /-- OTPUT (R274): The manager-die service moves local units to the tensor's owners. -/
  | otput (n : Nat) (remote : OwnerAnswer) (errs : List (Nat × EccResult))
  /-- OT_MOVE_DONE (R274): When every part of an owner-table move has moved, a reply with STAT 0 is sent. -/
  | otMoveDone (n : Nat)
  /-- FLIT_RECEIVE (R355): A fabric port receives a 256 B flit. -/
  | flitReceive (port : PortId) (bytes : List Byte) (crcOk : Bool)
  /-- ACK_TIMEOUT (R357): After 2 µs without an acknowledgement, the sender replays. -/
  | ackTimeout (port : PortId)
  /-- SLOT_MESSAGE (R356): A message slot delivers a request, reply or NAK from another module. -/
  | slotMessage (port : PortId)
  /-- SLOT_LINE_WRITE (R356): A line-write slot writes a line into this module. -/
  | slotLineWrite (port : PortId)
  /-- SLOT_LINE_READ (R356): A line-read slot asks for a line of this module. -/
  | slotLineRead (port : PortId) (ecc : EccResult)
  /-- SLOT_BARRIER_ARRIVAL (R256): The manager module counts a spanning-barrier arrival from a module of the span group. -/
  | slotBarrierArrival (port : PortId)
  /-- SLOT_BARRIER_COMPLETION (R256): A spanning completion, commit or abort, is delivered to the die root. -/
  | slotBarrierCompletion (port : PortId)
  /-- SLOT_TIME (R362): A time slot carries the stamps of the time-alignment exchange. -/
  | slotTime (port : PortId)
  /-- SLOT_MANAGEMENT_COMMAND (R361): A worker accepts an assize command from its manager module. -/
  | slotManagementCommand (port : PortId) (cmd : ManagementCommand)
  /-- EPOCH_NOTICE (R358): An epoch-notice flit starts the new epoch, and old requests receive NAK EPOCH. -/
  | epochNotice (port : PortId)
  /-- LINK_IDLE_TIMEOUT (R358): 10 µs without a valid flit resets the link. -/
  | linkIdleTimeout (port : PortId)
  /-- LINK_RETRAIN_DONE (R358): The retrained link comes up, and barrier messages are sent again. -/
  | linkRetrainDone (port : PortId) (trained : Bool)
  /-- TIME_EXCHANGE (R362): Each 1 ms, a worker exchanges time slots with the manager module and slews its offset. -/
  | timeExchange (ex : TimeStamps)
  /-- D2D_FLIT_RECEIVE (R386): A die-to-die flit is received, corrected or replayed, and retrained after a fourth replay. -/
  | d2dFlitReceive (flit : D2dFlit)
  /-- D2D_RETRAIN_DONE (R386): The die-to-die link completes its retrain, and control-plane commands are reissued. -/
  | d2dRetrainDone
  /-- TIME_BASE_SYNC (R296): Every 1,024 ns the time-base master sends its count to the die root. -/
  | timeBaseSync
  /-- BAR2_ACCESS (R346): A host access to the scratchpad window is accepted or refused per line. -/
  | bar2Access (off : BitVec 31) (acc : WindowAccess) (errs : List (Nat × EccResult))
  /-- BAR4_ACCESS (R346): A host access to the HBM window is accepted or refused per line. -/
  | bar4Access (off : BitVec 38) (acc : WindowAccess) (errs : List (Nat × EccResult))
  /-- REGISTER_WRITE (R344): A BAR0, MCTP or control-plane write to a register without behaviour of its own. -/
  | registerWrite (req : Requester) (off : BarOffset) (size : Nat) (value : BitVec 64)
  /-- TB_COUNT_LO_READ (R298): A read of TB_COUNT_LO latches the high half into the shadow. -/
  | tbCountLoRead (size : Nat)
  /-- OSC_STAT_CLEAR (R288): Writing CLR resets EXCUR and LOWEST. -/
  | oscStatClear (off : BitVec 26) (size : Nat) (value : BitVec 64)
  /-- DOORBELL (R350): The host rings a session's doorbell, which is accepted or refused with a completion. -/
  | doorbell (n : Fin 4096) (fn : Nat) (size : Nat) (value : BitVec 64)
  /-- SES_CTX_WRITE (R349): A write to a session context; setting VALID opens it and resets its sequence numbers. -/
  | sesCtxWrite (n : Fin 4096) (off : BitVec 6) (size : Nat) (value : BitVec 64)
  /-- SLOT_EMPTY_WRITE (R351): At d_(k−1), the manager die writes an EMPTY header into the slot half. -/
  | slotEmptyWrite (p : PartId) (slot : Fin 32)
  /-- INPUT_PLACEMENT (R351): The manager die starts placing the oldest waiting doorbell's input into the slot half. -/
  | inputPlacement (p : PartId) (slot : Fin 32)
  /-- PLACEMENT_COMPLETE (R351): The placed lines and FULL header are written, and a placement completion follows. -/
  | placementComplete (p : PartId) (slot : Fin 32) (lines : List Line)
  /-- PLACEMENT_SUPPRESS (R351): At d_k − 8, writes to the half are suppressed and an unfinished placement is abandoned. -/
  | placementSuppress (p : PartId) (slot : Fin 32)
  /-- VF_FLR (R342): A function-level reset of a VF closes its sessions. -/
  | vfFlr (vf : Nat)
  /-- PF0_FLR (R342): A function-level reset of PF0 stops the partitions and closes all sessions. -/
  | pf0Flr
  /-- CONVENTIONAL_RESET (R342): PERST_N or a conventional reset acts as a PF0 function-level reset. -/
  | conventionalReset
  /-- D3HOT_ENTRY (R342): A move to D3hot stops the partitions and closes all sessions. -/
  | d3hotEntry
  /-- D0_RETURN (R342): A return to D0 leaves the stopped partitions stopped. -/
  | d0Return
  /-- LOAD (R313): The first pass reads and checks an assize image in six stages. -/
  | load (req : Requester) (img : Image) (pmask : BitVec 8)
  /-- ASSIZE_APPLY (R317): The second pass applies the image, then BUSY clears and the partitions become stopped. -/
  | assizeApply (img : Image)
  /-- RELEASE (R318): Release prepares stopped partitions and chooses a release cycle. -/
  | release (req : Requester) (pmask : BitVec 8)
  /-- RELEASE_CYCLE (R318): In the chosen cycle, every core issues its entry point at issue count 0. -/
  | releaseCycle (p : PartId)
  /-- STOP (R319): Stops running or halted partitions. -/
  | stop (req : Requester) (pmask : BitVec 8)
  /-- ARM (R322): Checks a transaction image, writes its code and arms it. -/
  | arm (req : Requester) (img : Image) (pmask : BitVec 8)
  /-- CANCEL (R322): Disarms an armed transaction. -/
  | cancel (req : Requester) (pmask : BitVec 8)
  /-- WEIR_PERIOD (R326): At each 1,000 ns boundary, every activity's credit is reset and waiting transfers are admitted. -/
  | weirPeriod
  /-- COLD_RESET (R330): When the input passes 39.0 V rising, the rails come up in order and the part boots. -/
  | coldReset (boot : BootFindings)
  /-- RAIL_FAIL (R330): A rail that is not in regulation within 2 ms turns the stage off into standby with PWRFAIL set. -/
  | railFail (rail : Fin 8)
  /-- BOOT_READY (R371): When the wipe ends, READY is set and BUSY clears. -/
  | bootReady
  /-- VIN_SAMPLE (R328): The controller samples input voltage and current every 10 µs. -/
  | vinSample (mv : Int) (ma : Nat)
  /-- UNDERVOLTAGE_SHUTDOWN (R328): An input below 38.0 V for 50 µs starts a power-down. -/
  | undervoltageShutdown
  /-- OVERVOLTAGE_SHUTDOWN (R328): An input above 63.0 V for 10 µs starts a latched power-down. -/
  | overvoltageShutdown
  /-- OVERCURRENT_SHUTDOWN (R328): An input current above 70 A for 50 µs starts a latched power-down. -/
  | overcurrentShutdown
  /-- MGR_LOSS (R331): Loss of MGR regulation starts a power-down. -/
  | mgrLoss
  /-- ENVELOPE_ADJUST (R334): Each 1 ms, the controller chooses a clock step from power, the gated fraction and temperatures. -/
  | envelopeAdjust
  /-- RAIL_SETTLE_CHECK (R292): If the rail is not settled by N − 1,024, N moves later by 8,192 c. -/
  | railSettleCheck (settled : Bool)
  /-- FREQ_CHANGE_START (R291): The deliberate change starts at oscillator cycle N in every region. -/
  | freqChangeStart
  /-- FREQ_RAMP_STEP (R292): Every 16 c, the set point moves 25 MHz towards the target. -/
  | freqRampStep
  /-- TEMP_SAMPLE (R336): Every 100 µs, sensors are read and alerts, throttling and refresh interval follow. -/
  | tempSample (temps : SensorReadings)
  /-- DROOP_RESPONSE (R286): A falling core rail lengthens the oscillator period within 3 c. -/
  | droopResponse (lowest : BitVec 10)
  /-- CORE_UV (R287): A core rail below the allowance stops the oscillator and starts a warm reset. -/
  | coreUv
  /-- REFCLK_OUT_OF_TOLERANCE (R283): A reference outside tolerance sets REFBAD and writes a record. -/
  | refclkOutOfTolerance
  /-- REFCLK_LOSS (R283): Loss of the reference holds the PLLs over, sets REFLOSS and drops the links. -/
  | refclkLoss
  /-- REFCLK_RETURN (R283): On return of the reference, the PLLs relock and the links retrain. -/
  | refclkReturn
  /-- CAL_READ (R339): Returns the 4 KiB calibration set. -/
  | calRead (piece : CalRequest)
  /-- CAL_WRITE (R339): Replaces the calibration set in flash with ORIGIN = 1. -/
  | calWrite (sec : Bool) (piece : CalPiece)
  /-- RR_MODE_OFF (R300): Writing MODE = 0b00 turns record and replay off. -/
  | rrModeOff (req : Requester) (p : PartId)
  /-- RR_MODE_RECORD (R303): Writing MODE = 0b01 selects recording and clears MGR_RR_STAT. -/
  | rrModeRecord (req : Requester) (p : PartId)
  /-- RR_MODE_REPLAY (R303): Writing MODE = 0b10 selects replay and clears DIVERGED. -/
  | rrModeReplay (req : Requester) (p : PartId)
  /-- EVENT_RECORD_DURABLE (R387): A record becomes durable 10 µs after detection, and vector 8 is raised for severity 5 or more. -/
  | eventRecordDurable
  /-- CE_SUMMARY_CHECK (R385): Each 1 ms, the manager die compares the corrected-error counts and writes a CE_SUMMARY record if they rose. -/
  | ceSummaryCheck
  /-- EVR_RDSEQ_WRITE (R394): A write covering bits 47:32 latches the record with the smallest SEQ at or above the value. -/
  | evrRdseqWrite (off : BitVec 26) (size : Nat) (value : BitVec 64)
  /-- EVR_READ (R395): The MCTP command returns the selected event record. -/
  | evrRead (sec : Bool) (seq : BitVec 48)
  /-- EVR_CLEAR (R396): The authorised MCTP command clears the store and writes an EVR_CLEAR record. -/
  | evrClear (sec : Bool) (payload : List Byte) (token : Token)
  /-- MGR_RST_WARM (R370): MGR_RST command 0x1 starts a warm reset. -/
  | mgrRstWarm (key : BitVec 32)
  /-- MGR_RST_PARTITION (R370): MGR_RST command 0x2 starts a partition reset for each partition in PMASK. -/
  | mgrRstPartition (key : BitVec 32) (pmask : BitVec 8)
  /-- MGR_RST_COLD (R370): MGR_RST command 0x3 powers down and restarts after 100 ms. -/
  | mgrRstCold (key : BitVec 32)
  /-- MCTP_RESET_COLD (R366): The MCTP RESET command with type cold. -/
  | mctpResetCold (sec : Bool)
  /-- MCTP_RESET_WARM (R366): The MCTP RESET command with type warm. -/
  | mctpResetWarm (sec : Bool)
  /-- MCTP_RESET_PARTITION (R366): The MCTP RESET command with type partition. -/
  | mctpResetPartition (sec : Bool) (pmask : BitVec 8)
  /-- PARTITION_WIPE_DONE (R368): At the end of the wipe, INRST clears and the partition becomes stopped. -/
  | partitionWipeDone (p : PartId)
  /-- WARM_RESET_READY (R372): After alignment, training and wipe, READY returns to 1. -/
  | warmResetReady (fault : Option AlignFault)
  /-- LC_PROVISION (R375): Moves from BLANK or RETURNED to PROVISIONED, generating keys. -/
  | lcProvision (sec : Bool) (token : Token) (record : Provisioning)
  /-- LC_DEPLOY (R375): Moves from PROVISIONED to DEPLOYED. -/
  | lcDeploy (sec : Bool) (token : Token)
  /-- LC_RETURN (R375): Moves to RETURNED and erases the keys. -/
  | lcReturn (sec : Bool) (token : Token)
  /-- TAMPER_OPEN (R379): Opening the lid tamper loop raises trigger 0. -/
  | tamperOpen
  /-- GLITCH (R379): A voltage or clock glitch raises trigger 1. -/
  | glitch
  /-- TAP_BYPASS (R383): The BYPASS instruction of the TAP. -/
  | tapBypass
  /-- TAP_IDCODE (R383): The IDCODE instruction of the TAP. -/
  | tapIdcode
  /-- TAP_SAMPLE_PRELOAD (R383): The SAMPLE/PRELOAD instruction of the TAP. -/
  | tapSamplePreload
  /-- TAP_EXTEST (R383): EXTEST stops every partition and drops the host and fabric links. -/
  | tapExtest
  /-- TAP_CLAMP (R383): CLAMP stops every partition and drops the links. -/
  | tapClamp
  /-- TAP_HIGHZ (R383): HIGHZ stops every partition and drops the links. -/
  | tapHighz
  /-- TAP_PRIVATE (R383): A private instruction is available in RETURNED, and otherwise decodes as BYPASS and raises trigger 2. -/
  | tapPrivate
  /-- PLDM_FIRMWARE_UPDATE (R364): Takes a signed manager firmware image into the inactive bank. -/
  | pldmFirmwareUpdate (fw : FirmwareImage)
  /-- PLDM_SENSOR_READ (R364): PLDM type 2 returns sensor and state readings. -/
  | pldmSensorRead
  /-- PLDM_DISCOVERY (R364): PLDM type 0 base discovery. -/
  | pldmDiscovery
  /-- SPDM_GET_CERTIFICATE (R365): Returns the part's certificate chain. -/
  | spdmGetCertificate
  /-- SPDM_CHALLENGE (R365): Answers an SPDM challenge. -/
  | spdmChallenge (nonce : BitVec 256)
  /-- SPDM_GET_MEASUREMENTS (R365): Returns signed measurement blocks 1 to 5. -/
  | spdmGetMeasurements (nonce : BitVec 256)
  /-- SPDM_KEY_EXCHANGE (R365): Establishes a secured session. -/
  | spdmKeyExchange (nonce : Option (BitVec 256))
  /-- IDE_KM (R340): Installs IDE stream keys over SPDM. -/
  | ideKm (sec : Bool) (stream : Fin 5)
  /-- TAMPER_LOOP_CLOSE (R379): The lid tamper loop closes again, TAMPER clears, and after 1 ms closed the loop can raise a new alarm. -/
  | tamperLoopClose
  /-- SHUTDOWN_LATCH_RELEASE (R328): After the input has stayed below 20 V for at least 100 ms, the latched overcurrent or overvoltage shutdown releases. -/
  | shutdownLatchRelease
  /-- COLD_COMMAND_TURN_ON (R366): 100 ms after the power-down of a commanded cold reset, the stage turns on again and the cold boot runs. -/
  | coldCommandTurnOn (boot : BootFindings)
  /-- MSIX_UNMASK (R397): The host unmasks an MSI-X vector, and one message is sent for the occurrences collected in its pending bit. -/
  | msixUnmask (vec : Fin 4096)
  /-- UNDEFINED_SERVICE_REQUEST (R273): A request to the manager die whose HND names no service receives NAK BADREQ. -/
  | undefinedServiceRequest (n : Nat)
  /-- REQUEST_SEND_FROM_HANDLER (R268): A handler operation MSREQ halts the core with reason 0x0B. -/
  | requestSendFromHandler (core : CoreId)
  /-- RECORD_STAGING_WRITE (R303): The manager die writes staged records to the record region, and stops recording with INCOMPLETE when the region is full. -/
  | recordStagingWrite
  /-- FLIT_TRANSMIT (R357): A fabric port sends its next flit, carrying new slots, a replay or an idle, and an acknowledgement at least every 32 flits or 200 ns. -/
  | flitTransmit (port : PortId)
  /-- CHANGE_SPACING_END (R292): 50 µs after a deliberate change ends, the last request deferred during the ramp is applied. -/
  | changeSpacingEnd
  /-- STRETCHED_CYCLE (R294): A local droop monitor stretches the next cycle of a manager-die or message-network region, and MGR_STRETCH counts it. -/
  | stretchedCycle (network : Bool)
  /-- TIME_BASE_TICK (R295): The time base advances by one 1 ns tick, with a tick added or omitted every 1,000 ns while TB_ADJ is not zero. -/
  | timeBaseTick
  deriving DecidableEq, Repr

end Sys2Proof
end

