-- ==== Sys2Proof/Decode.lean ====
section
/-! DEFINITION. Decode.lean: the commands that words spell by the table's bits. No row of spec/opcode_table.json gives bits, so no word spells a command; the slots of a bundle are decoded where they issue (03 R53, R54). -/

namespace Sys2Proof

/-- The command that a word of nbits bits spells by the table: the table gives no row any bits, so none. -/
def decodeTableWord (_nbits _w : Nat) : Option Instr := none

end Sys2Proof
end

