-- ==== Sys2Proof/Config.lean ====
section
/-! DEFINITION. Config.lean: what the spec leaves open, as constants with no body: nothing can be proved of their values (DESIGN CHOICE, logs 8 and 10; PRESUMED, log 11). -/

namespace Sys2Proof.Config

/-- The bits RCP gives for an operand where R180 bounds but does not fix them (DESIGN CHOICE, log 10). -/
opaque rcpBits : BitVec 32 → BitVec 32
/-- As rcpBits, for RSQRT. -/
opaque rsqrtBits : BitVec 32 → BitVec 32
/-- As rcpBits, for EXP2. -/
opaque exp2Bits : BitVec 32 → BitVec 32
/-- As rcpBits, for LOG2. -/
opaque log2Bits : BitVec 32 → BitVec 32
/-- As rcpBits, for TANH. -/
opaque tanhBits : BitVec 32 → BitVec 32
/-- A core region's fixed time-base offset: its value mod 5 minus 2 is in -2 .. 2 ns (R296); drawn anew at each alignment, the draw's number is the first argument. -/
opaque timeOffset : Nat → CoreId → Nat

/-- Which eligible blocks of an engine are gated next, from those gated now and those eligible in this cycle and the next sixteen: a fixed function that R132 bounds and does not give (DESIGN CHOICE, log 77). -/
opaque gateChoice : BitVec 64 → List (BitVec 64) → BitVec 64

/-- A value the spec leaves open, drawn with the state's fresh counter. -/
opaque freeValue : Nat → BitVec 64

/-- CRC-32 of the first 246 bytes of a flit (R355): the polynomial is not in the spec (log 11). -/
opaque flitCrc : List (BitVec 8) → BitVec 32
/-- The interleaved parity of the first 250 bytes of a flit (R355): the code is not in the spec (log 11). -/
opaque flitFec : List (BitVec 8) → BitVec 48

end Sys2Proof.Config
end

