-- ==== Sys2Proof/Machine/State.lean ====
section
/-! DEFINITION. State.lean: everything the spec gives the part to hold, as plain data, and the state right after a cold reset. -/

namespace Sys2Proof.Machine

/-- Why the machine stops. -/
inductive Fault where
  /-- Raised by VIN_SAMPLE when the input passes an absolute maximum rating: beyond it no promise of the manual holds (18 R412). Safe: the model stops where the spec says nothing. -/
  | outsideRatings
  deriving DecidableEq, Repr

/-- Why a command gets no meaning. -/
inductive Refusal where
  /-- An arm of exec that has no meaning yet; no arm uses it when the row is complete. Safe. -/
  | notModelled (mnemonic : String)
  deriving DecidableEq, Repr

/-! ## Records shared by several units -/

/-- The grades of the part (00 R1, R2). -/
inductive Grade where
  | nml5664
  | nml5656
  | nml5648
  deriving DecidableEq, Repr

/-- An on-die message: its 8 B header and its payload (11 R258); gen counts the closings of the requester before it sent, so that answers to a closed requester are discarded (11 R271). -/
structure Msg where
  hdr : BitVec 64
  payload : Line
  gen : Nat
  deriving DecidableEq, Repr

/-! ## A core's units -/

/-- An open repeat level (03 R65): the counter that owns it, its first and last bundle. -/
structure RepLevel where
  ctr : Fin 8
  first : BitVec 48
  last : BitVec 48
  deriving DecidableEq, Repr

/-- The fetch path of delay bundles (03 R63) or of a zero-count REP (R65): bundles left before the redirect, the branch's own bundle included, the address then fetched (none: fall through), and whether the bundles after it are the two unfetched empty ones. -/
structure Redirect where
  left : Nat
  target : Option (BitVec 48)
  empties : Bool
  deriving DecidableEq, Repr

/-- Control unit and fetch (03 R55, R58, R63-R69) and the wait in progress: its deadline and its slot's bits (10 R246, R247). -/
structure ControlUnit where
  c : Vector (BitVec 32) 8
  p : Vector (BitVec 48) 16
  k : Vector Bool 4
  pc : BitVec 48
  redirect : Option Redirect
  reps : List RepLevel
  finished : Bool
  finCyc : Nat
  halted : Bool
  waiting : Bool
  deadline : Option (BitVec 64)
  wait : BitVec 48
  deriving DecidableEq, Repr

/-- The halt record (03 R75). -/
structure HaltRecord where
  valid : Bool
  first : Bool
  inflight : Bool
  slot : BitVec 3
  reason : BitVec 8
  addr : BitVec 48
  icount : BitVec 64
  detail : BitVec 64
  tb : BitVec 64
  deriving DecidableEq, Repr

/-- Where a vector result goes (07 R168, R183; 11 R265). -/
inductive VDest where
  /-- Lanes of V[vd] whose bit in mask is 1 take their lane of value. -/
  | reg (vd : Fin 32) (value : BitVec 16384) (mask : BitVec 512)
  /-- Bits of Q[qd] whose bit in mask is 1 take their bit of value. -/
  | pred (qd : Fin 8) (value : BitVec 512) (mask : BitVec 512)
  /-- A load whose slice read is performed in the next issue cycle (R168). -/
  | load (vd : Fin 32) (addr : BitVec 48) (form : BitVec 3) (fn : BitVec 7)
  /-- One received line of V[vd] (11 R265). -/
  | line (vd : Fin 32) (ln : Fin 32) (value : Line)
  /-- A store of bytes already read: the lines and their address. -/
  | store (addr : BitVec 48) (lines : List Line)
  deriving DecidableEq, Repr

/-- A vector result in flight (07 R168): the issue count at which it is written, its flags, its store-through address, form and FN, the address of its bundle. -/
structure VPending where
  due : Nat
  dest : VDest
  flags : BitVec 5
  through : Option (BitVec 48 × BitVec 3 × BitVec 7)
  bundle : BitVec 48
  deriving DecidableEq, Repr

/-- The vector engine (07 R163). -/
structure VectorUnit where
  v : Vector (BitVec 16384) 32
  q : Vector (BitVec 512) 8
  flags : BitVec 5
  pend : List VPending
  deriving DecidableEq, Repr

/-- A group-partial register (05 R106, R120): the exact sum, in units of the smallest product of its formats, and the special state: 0 finite, 1 +infinity, 2 -infinity, 3 NaN (R121). -/
structure Partial where
  sum : BitVec 72
  special : BitVec 2
  deriving DecidableEq, Repr

/-- An MMA-family instruction in flight (05 R116): opcode and fields, first read cycle, cycles per k-cycle, passes, whether it executes, next k-cycle to write, operands captured, scale bytes and metadata, each under the k-cycle that first uses them; the address of its bundle. -/
structure MmaOp where
  opc : BitVec 8
  w : BitVec 56
  bundle : BitVec 48
  p : Nat
  f : Nat
  passes : Nat
  exec : Bool
  next : Nat
  a : List (Nat × BitVec 16384)
  b : List (Nat × BitVec 16384)
  sa : List (Nat × BitVec 4096)
  sb : List (Nat × BitVec 4096)
  md : List (Nat × BitVec 1024)
  deriving DecidableEq, Repr

/-- A drain in flight (05 R137): issue count, accumulator, mode, group code, shape, chunks read so far. -/
structure DrainOp where
  d : Nat
  acs : Bool
  mode : BitVec 3
  qg : BitVec 2
  shp : BitVec 2
  chunks : List (Nat × BitVec 4096)
  deriving DecidableEq, Repr

/-- A requantisation-latch load in flight (05 R134). -/
structure MrqlOp where
  s : Nat
  tq : Fin 16
  blk : BitVec 2
  bundle : BitVec 48
  deriving DecidableEq, Repr

/-- A matrix engine (05 R106, R107, R132, R133, R135; 04 R98). group: the group-partial registers in the order of the accumulator's entries, none listed while all are 0; window: the A windows of the cell rows; gated: the blocks gated in the present cycle. -/
structure MatrixEngine where
  acc0 : BitVec 524288
  acc1 : BitVec 524288
  latch : BitVec 19968
  shp0 : Option (BitVec 2)
  shp1 : Option (BitVec 2)
  ops : List MmaOp
  drains : List DrainOp
  mrql : List MrqlOp
  reuseA : Option (Fin 16 × Nat)
  reuseB : Option (Fin 16 × Nat)
  group : List Partial
  window : Vector (BitVec 64) 128
  gated : BitVec 64
  present : Option (BitVec 4096)
  kcyc : BitVec 64
  zblk : BitVec 64
  deriving DecidableEq, Repr

/-- What a stream block does (08 R187; 09 R218, R223, R229). -/
inductive BlockKind where
  | copy (xf : BitVec 4)
  | tile (store : Bool) (eng : EngId) (t : Fin 16) (shape : BitVec 2)
  | sttx (store : Bool) (eng : EngId) (t : Fin 16) (width : Nat)
  | gather
  | scatter
  deriving DecidableEq, Repr

/-- One source line under way: its number, its address, the cycle of its remote read or of its arrival, its data once read, whether it is late, whether its HBM request waits for a staging entry (08 R204, R210, R211). -/
structure LineInFlight where
  idx : Nat
  addr : Nat
  due : Nat
  data : Option Line
  late : Bool
  unsent : Bool
  deriving DecidableEq, Repr

/-- One destination line released and not yet performed: stage 0 waits for its cycle, 1 is on its way, 2 waits for a controller to finish it (08 R204, R205). -/
structure LineOut where
  idx : Nat
  addr : Nat
  due : Nat
  data : Line
  late : Bool
  stage : Nat
  deriving DecidableEq, Repr

/-- A block in a stream engine (08 R188, R204; 09): its number, kind, chain slot, chain number, seed, descriptor, XPAR, their address, the SCHN's or its own bundle's address; the cycle and issue count of its issue; its due count; whether it lags; the next source or index line to access; lines under way, lines in staging and the cycles of their arrival; destination lines released, under way and written; for indexed blocks the indices examined (none: skipped), the next turn and the cycle of the last one; whether a safety-net refresh delays a line of it, and if so whether it was inserted during a hold (02 R40); the number of its first element in the chain; the source line that failed, from which on nothing is written (04 R88). -/
structure Block where
  id : Nat
  kind : BlockKind
  chain : Option (Fin 16)
  cid : Nat
  seed : BitVec 32
  desc : BitVec 256
  xpar : BitVec 256
  descAddr : BitVec 48
  bundle : BitVec 48
  issued : Nat
  count : Nat
  due : Nat
  lag : Bool
  access : Nat
  srcs : List LineInFlight
  staged : List (Nat × Line)
  arrived : List (Nat × Nat)
  released : List Nat
  outs : List LineOut
  written : Nat
  indices : List (Option (BitVec 32))
  turn : Nat
  lastTurn : Nat
  forced : Option Bool
  elem0 : Nat
  failed : Option Nat
  deriving DecidableEq, Repr

/-- A scoreboard range (04 R91): the block it belongs to, first and last byte, due count, whether it covers a tile source. -/
structure SbRange where
  blk : Nat
  lo : Nat
  hi : Nat
  due : Nat
  source : Bool
  deriving DecidableEq, Repr

/-- A chain under way (08 R191-R193): its number, list base, descriptors after HEAD, descriptors read, planned line reads (line, issue count, late), the next descriptor, the planned count of the last block (s + 9 before the first), SEED, elements numbered so far, address of the SCHN, whether it started from a latch, whether its next block found no range at its planned count. -/
structure Chain where
  cid : Nat
  base : Nat
  n : Nat
  got : List (Nat × BitVec 256)
  reads : List (Nat × Nat × Bool)
  nextDesc : Nat
  planned : Nat
  seed : BitVec 32
  elems : Nat
  bundle : BitVec 48
  late : Bool
  stuck : Bool
  deriving DecidableEq, Repr

/-- The collision budget of a chain (09 R234): its number, CBUD, collision cycles so far, past budget. It outlives the chain's slot, as long as a block of the chain is in flight. -/
structure Budget where
  cid : Nat
  cbud : Nat
  sum : Nat
  past : Bool
  deriving DecidableEq, Repr

/-- A chain start waiting in a start latch (08 R191). -/
structure ChainStart where
  base : Nat
  n : Nat
  bundle : BitVec 48
  deriving DecidableEq, Repr

/-- The stream engine (08 R191, R216; 09 R222, R232, R235; 04 R91). path: the first cycle in which the indexed path is free for a turn. -/
structure StreamUnit where
  chains : Vector (Option Chain) 16
  latches : Vector (Option ChainStart) 16
  budgets : List Budget
  path : Nat
  blocks : List Block
  nextId : Nat
  waiting : List Block
  board : List SbRange
  dropped : BitVec 16
  lag : BitVec 32
  late : BitVec 64
  sdesc : BitVec 48
  overrun : BitVec 16
  skipped : BitVec 24
  clamped : BitVec 24
  coll : BitVec 64
  deriving DecidableEq, Repr

/-- A core's state at one barrier id (10 R251). -/
inductive BarState where
  | idle
  | arrived
  | completed
  deriving DecidableEq, Repr

/-- The sync unit (10 R239, R251, R257). -/
structure SyncUnit where
  s : Vector (BitVec 8) 48
  cap : Vector (BitVec 8) 48
  scope : BitVec 32
  bar : Vector BarState 16
  tmout : BitVec 16
  wcyc : BitVec 48
  deriving DecidableEq, Repr

/-- A handler being run (11 R267, R270). -/
structure Handler where
  req : Msg
  op : Nat
  replied : Bool
  deriving DecidableEq, Repr

/-- The message unit (11 R261, R262, R278, R279, R282). rqHeld and rpHeld count entries reserved and not yet filled, rqHeld by class. -/
structure MessageUnit where
  rq : List Msg
  rqHeld : Vector Nat 4
  rp : List Msg
  rpHeld : Nat
  handler : Option Handler
  staging : Vector (Option Msg) 16
  txHeld : List (Fin 16)
  gen : Nat
  fab : Bool
  peers : BitVec 8
  c0res : BitVec 4
  rpDepth : BitVec 6
  rqDepth : BitVec 6
  extra : BitVec 16
  auto : BitVec 16
  nakRx : BitVec 16
  closedTx : BitVec 16
  deriving DecidableEq, Repr

/-- What the assize sets in a core's control block and its code region (13 R310; 04 R85, R87, R96, R103), and the error counters (04 R89, R90). oldCode: the code region before a commit, reachable until the bundle at hand has completed (13 R323). -/
structure CoreConfig where
  region : Vector (BitVec 64) 16
  tshape0 : BitVec 64
  tshape1 : BitVec 64
  legacy : Bool
  hnd : Sparse 48
  codeBase : BitVec 64
  codeLen : BitVec 64
  entry : BitVec 64
  armedCode : Option (Nat × Nat)
  oldCode : Option (Nat × Nat)
  granule : BitVec 448
  scrubPasses : BitVec 16
  tileCe : BitVec 8
  ue : BitVec 8
  ce : BitVec 32
  poison : List Nat
  scrubAt : Nat
  scrubBack : Option (Nat × Line)
  lastCe : BitVec 32
  lastTileCe : BitVec 8
  deriving DecidableEq, Repr

/-- One core. -/
structure Core where
  ctl : ControlUnit
  halt : HaltRecord
  vec : VectorUnit
  mx : Vector MatrixEngine 4
  str : StreamUnit
  syn : SyncUnit
  mu : MessageUnit
  cfg : CoreConfig
  deriving DecidableEq, Repr

/-! ## A partition -/

/-- PSTATE (13 R312). -/
inductive PState where
  | empty
  | stopped
  | running
  | halted
  deriving DecidableEq, Repr

/-- The causes of a hold, in the order of 02 R40. -/
inductive HoldCause where
  | halt
  | retry
  | late
  | gather
  | forced
  | pend
  deriving DecidableEq, Repr

/-- What the hold controller watches (02 R34): a block of a core, an input slot's occurrence, a spanning completion. -/
inductive DueItem where
  | block (core : CoreId) (id : Nat)
  | slot (n : Fin 32)
  | span (id : Fin 16)
  deriving DecidableEq, Repr

/-- A hold decided (02 R35, R37): the bundle it comes before, what it waits for, whether it has begun, the cycle t + 8 that ends it once no cause remains, the cause active first at the decision or counted last, the held cycles counted against it since the last HOLD record (12 R301), and in replay the causes and lengths still to be counted (12 R304). -/
structure Hold where
  before : Nat
  items : List DueItem
  begun : Bool
  ends : Option Nat
  last : HoldCause
  run : Nat
  script : List (HoldCause × Nat)
  deriving DecidableEq, Repr

/-- An input slot of the partition's manifest (15 R351; 13 R417). k is the next occurrence to consume; readyFor the occurrence whose EMPTY header has been written plus one; fetchOwed the lines of the fetch under way that the weir has yet to admit (15 R347). -/
structure InputSlot where
  valid : Bool
  core : CoreId
  base : Nat
  h : Nat
  cls : BitVec 2
  first : Nat
  spacing : Nat
  k : Nat
  readyFor : Nat
  placing : Option Nat
  fetchOwed : Nat
  filled : Bool
  deriving DecidableEq, Repr

/-- A remote signal in flight (10 R241): target, counter, amount, arrival cycle, sender, the sender's bundle. -/
structure Signal where
  target : CoreId
  n : Fin 64
  amt : BitVec 8
  at_ : Nat
  sender : CoreId
  bundle : BitVec 48
  deriving DecidableEq, Repr

/-- The root's state for one barrier id (10 R252, R255, R256): arrivals under way with their cycles, the cores counted, the cycle of the last member's arrival, completions under way with their cycles; of a spanning id its due count, whether its completion is ready, whether it commits, whether one is awaited. -/
structure BarrierRoot where
  coming : List (CoreId × Nat)
  arrived : BitVec 64
  full : Option Nat
  going : List (CoreId × Nat)
  spanDue : Nat
  spanReady : Bool
  spanCommit : Bool
  spanWaiting : Bool
  deriving DecidableEq, Repr

/-- A resource taken in a planned cycle (03 R56): its issue count, the resource's number, a tag that claims of one use share (for a tile-bank read the line it reads plus one, 04 R97); whether its access goes on by oscillator cycles in a hold; the core, slot and bundle that planned it. -/
structure Resv where
  cyc : Nat
  res : Nat
  tag : Nat
  runs : Bool
  core : CoreId
  slot : Nat
  bundle : BitVec 48
  deriving DecidableEq, Repr

/-- A PARTS record (13 R309). -/
structure PartsRecord where
  valid : Bool
  x0 : BitVec 3
  y0 : BitVec 3
  w : BitVec 4
  h : BitVec 4
  pcBase : BitVec 6
  b : BitVec 7
  ilv : Bool
  refm : Bool
  deriving DecidableEq, Repr

/-- An armed transaction (13 R320, R322). -/
structure Armed where
  id : Fin 16
  epv : Bool
  token : BitVec 32
  img : Image
  deriving DecidableEq, Repr

/-- A halt in flight found when the bundles of a cycle have issued: it takes effect as the next cycle begins (03 R71). handler: a handler operation raised it (12 R301). -/
structure HaltFound where
  core : CoreId
  inflight : Bool
  slot : Nat
  reason : Nat
  addr : BitVec 48
  detail : Nat
  handler : Bool
  deriving DecidableEq, Repr

/-- One partition (12 R299; 13 R309, R312, R323; 02; 10; 15 R351). cycDone: it has issued or held in the present oscillator cycle; used: resources that accesses outside the plan took in it; release: the least oscillator cycle and time-base count of a release chosen; rstAsked: a partition reset waits for its halt records (17 R397); refreshed: the release refresh of a release chosen has begun (08 R214); halting: halts in flight that take effect as the next cycle begins; endErrs: what the error checks find of the reads that complete after the last FIN (03 R69). -/
structure Part where
  pr : PartsRecord
  pstate : PState
  inrst : Bool
  rstAsked : Bool
  stopAsked : Bool
  icount : BitVec 64
  cyc : BitVec 64
  total : BitVec 64
  halt : BitVec 64
  late : BitVec 64
  retry : BitVec 64
  gover : BitVec 64
  fref : BitVec 64
  pend : BitVec 64
  tb0 : BitVec 64
  tbEnd : BitVec 64
  cycDone : Bool
  issued : Bool
  holds : List Hold
  checked : Nat
  haltLimit : Option Nat
  haltFirst : Nat
  haltTold : Bool
  release : Option (Nat × Nat)
  refreshed : Bool
  slots : Vector InputSlot 32
  roots : Vector BarrierRoot 16
  signals : List Signal
  armed : Option Armed
  committed : Option Armed
  txnIcount : BitVec 48
  txnId : Fin 16
  txnResult : BitVec 3
  taskEnd : Bool
  endErrs : List (Nat × EccResult)
  halting : List HaltFound
  resv : List Resv
  used : List Nat
  deriving DecidableEq, Repr

/-! ## HBM -/

/-- Who entered a request in a pseudo-channel queue, and what it asks (08 R208). -/
inductive HbmReq where
  /-- A line read for a block of a core. -/
  | read (core : CoreId) (blk : Nat) (line : Nat) (addr : Nat)
  /-- A line write of a block of a core. -/
  | write (core : CoreId) (blk : Nat) (line : Nat) (addr : Nat) (data : Line)
  /-- A refresh; forced: the safety net inserted it. -/
  | refresh (forced : Bool)
  /-- A write of a non-scheduled access. -/
  | other (addr : Nat) (data : Line)
  /-- The turn of a non-scheduled read. -/
  | look (addr : Nat)
  deriving DecidableEq, Repr

/-- A request on its way to a queue: its entry cycle, the core and place that order it (08 R208), the pseudo-channel. -/
structure HbmTransit where
  at_ : Nat
  core : CoreId
  place : Nat
  pc : Nat
  req : HbmReq
  deriving DecidableEq, Repr

/-- One pseudo-channel (08 R208, R209, R213-R217). Times are time-base ns. -/
structure PseudoChannel where
  queue : List HbmReq
  serving : Option (HbmReq × Nat)
  reads : List (HbmReq × Line)
  lastStart : Option Nat
  busyTo : Nat
  missed : BitVec 16
  inserted : BitVec 16
  refreshes : BitVec 32
  lastRefresh : Nat
  lastMiss : Option Nat
  deriving DecidableEq, Repr

/-- One stack's error counter (17 R385) and its temperature range (08 R213). -/
structure Stack where
  ue : BitVec 16
  ce : BitVec 48
  hot : Bool
  lastCe : BitVec 48
  deriving DecidableEq, Repr

/-! ## The manager die -/

/-- A weir activity (13 R324, R326). -/
structure Activity where
  owner : BitVec 3
  cls : BitVec 2
  budget : BitVec 20
  credit : Nat
  wait : BitVec 64
  deriving DecidableEq, Repr

/-- One line of an access that no schedule places (04 R84). -/
inductive SoftLine where
  /-- A line read. -/
  | read (addr : Nat)
  /-- A line written whole. -/
  | put (addr : Nat) (data : Line)
  /-- A line read, some of its bytes replaced, and written. -/
  | merge (addr : Nat) (at_ : Nat) (bytes : List Byte)
  /-- A line read and written to another place. -/
  | copy (src : Nat) (dst : Nat)
  deriving DecidableEq, Repr

/-- Who waits for such an access. -/
inductive SoftEnd where
  /-- A host read of a window: its device address and length. -/
  | host (dev len : Nat)
  /-- A host write of a window. -/
  | posted
  /-- A service that works on a request. -/
  | service (m : Msg)
  /-- The placement of a doorbell's input in a slot for an occurrence. -/
  | placement (p : PartId) (slot : Fin 32) (k : Nat)
  /-- The arming of a transaction of a partition (13 R322). -/
  | arm (p : PartId) (a : Armed)
  deriving DecidableEq, Repr

/-- Lines that the manager die reads and writes on the compute die in idle slots (04 R84): its number, the lines left and how many of them the weir has yet to admit, those read, whether one was uncorrectable, what the error checks find, source and core of their WRITE records (12 R301), who waits. -/
structure SoftJob where
  id : Nat
  todo : List SoftLine
  owed : Nat
  got : List (Nat × Line)
  bad : Bool
  errs : List (Nat × EccResult)
  source : Nat
  core : Nat
  fin : SoftEnd
  deriving DecidableEq, Repr

/-- What waits for the weir (13 R326). -/
inductive Transfer where
  /-- The lines that an access of the manager die still owes. -/
  | lines (id : Nat)
  /-- A message leaving a partition. -/
  | message (m : Msg)
  /-- A doorbell: session, function, the value written, its place in the order of arrival, the time base at its arrival. -/
  | bell (n : Fin 4096) (func : Nat) (value : BitVec 64) (order : Nat) (tb : BitVec 64)
  /-- The first received slot of a fabric port. -/
  | inbound (port : PortId)
  /-- The lines that the fetch of an input for a slot still owes. -/
  | fetch (p : PartId) (slot : Fin 32)
  deriving DecidableEq, Repr

/-- A session context (15 R349) and the counts of its outputs and completions (R352, R353). -/
structure Session where
  valid : Bool
  func : BitVec 7
  act : BitVec 8
  part : BitVec 3
  slot : BitVec 5
  vec : BitVec 11
  nring : BitVec 16
  inRing : BitVec 64
  outRing : BitVec 64
  cpl : BitVec 64
  outLn : BitVec 24
  inLn : BitVec 24
  pend : BitVec 16
  placed : BitVec 24
  rung : BitVec 24
  bells : Nat
  outs : Nat
  cpls : Nat
  deriving DecidableEq, Repr

/-- An accepted doorbell not yet placed (15 R350): order is its place in the order in which doorbells reached the manager die, tb the time base then. -/
structure Doorbell where
  order : Nat
  session : Fin 4096
  lines : Nat
  tag : BitVec 32
  seq : Nat
  tb : BitVec 64
  deriving DecidableEq, Repr

/-- A request at the manager die (11 R262, R273, R274): whether its service has accepted it, the units of its move left and the offset of the next, whether the slots of the part at hand have gone out to its owner. -/
structure Service where
  req : Msg
  accepted : Bool
  left : Nat
  off : Nat
  sent : Bool
  deriving DecidableEq, Repr

/-- An assize command whose first pass passed and whose second is under way (13 R313, R317). -/
structure Applying where
  img : Image
  req : Requester
  deriving DecidableEq, Repr

/-- A fabric port (15 R354-R359, R363). fresh: since a reset of this module no epoch notice has given it its epoch; through: in the order sent, the requests that left on the port and whose credits have not returned, with destination and class and, for one that only passes through this module, the port it came in on (R359); rxNew: received slots that no flit sent since has acknowledged (11 R276); barred: received requests to a partition that has been reset since (11 R271). -/
structure Port where
  epoch : BitVec 8
  fresh : Bool
  lreset : BitVec 16
  replay : BitVec 32
  up : Bool
  inUse : Bool
  txSeq : BitVec 12
  acked : BitVec 12
  rxSeq : BitVec 12
  rxValid : Bool
  buffer : List Flit
  replays : Nat
  replaying : List Flit
  rnakOwed : Bool
  noticeOwed : Bool
  credits : Nat
  creditOwed : Nat
  reqOwed : Vector Nat 4
  through : List (Nat × Option PortId)
  rx : List FabSlot
  rxNew : List FabSlot
  barred : List FabSlot
  tx : List FabSlot
  unacked : List Msg
  lastValid : Nat
  lastAck : Nat
  deriving DecidableEq, Repr

/-- The FABRIC section (15 R361). -/
structure FabricConfig where
  modid : BitVec 16
  role : BitVec 8
  flow : BitVec 8
  mgrid : BitVec 16
  nmod : BitVec 16
  ports : BitVec 8
  route : BitVec 128
  spans : List (BitVec 128)
  deriving DecidableEq, Repr

/-- Arrivals that a manager module has counted at a spanning barrier (10 R256; 13 R323): partition, id, arrivals, whether each had armed a transaction, and its token. -/
structure SpanTally where
  part : PartId
  id : Fin 16
  count : Nat
  commit : Bool
  token : BitVec 32
  deriving DecidableEq, Repr

/-- A request of this die to another module that may still be answered, and whether the reply entry of an NR = 1 one is free again (11 R262, R270). -/
structure Asked where
  req : Msg
  freed : Bool
  deriving DecidableEq, Repr

/-- Everything the manager die keeps of messages, fabric and links (11, 15, 17 R386). reqUsed: request credits in use, by module and class (15 R359); e2e: the next number of each stream, sent or received, resync: received streams whose next slot sets it, as a link reset may have lost some (15 R360); asked: this die's requests to other modules that may still be answered; d2dReplays: flits of the die-to-die link that have failed, whether each goes to the compute die, its number, and how often it has been replayed (17 R386). -/
structure FabricState where
  cfg : FabricConfig
  ports : Vector Port 8
  tbOfs : BitVec 64
  tbAligned : Bool
  spanCount : List SpanTally
  stamps : Option TimeStamps
  d2dEpoch : BitVec 8
  d2dResets : BitVec 16
  d2dRetries : BitVec 40
  d2dReplays : List (Bool × Nat × Nat)
  d2dTraining : Bool
  e2e : List (Nat × BitVec 16)
  resync : List Nat
  reqUsed : List Nat
  asked : List Asked
  deriving DecidableEq, Repr

/-- An event record in a slot of the store (17 R388-R390): its SEQ, type, severity, SRC, REPEAT, TFIRST, TLAST, FABOFS and the type's own payload. -/
structure EventRecord where
  seq : BitVec 48
  type : BitVec 16
  sev : Fin 8
  src : BitVec 16
  rep : BitVec 16
  tFirst : BitVec 64
  tLast : BitVec 64
  fabOfs : BitVec 64
  body : List Byte
  deriving DecidableEq, Repr

/-- What becomes durable 10 us after its detection (17 R387, R397). -/
structure Durable where
  detected : Nat
  sev : Fin 8
  part : Option PartId
  deriving DecidableEq, Repr

/-- The event recorder (17 R387-R397). -/
structure EventStore where
  store : List EventRecord
  nextSeq : BitVec 48
  lost : Vector (BitVec 16) 8
  rdSeq : BitVec 48
  latched : Option EventRecord
  undurable : List Durable
  deriving DecidableEq, Repr

/-- Power state (14 R328-R331; 00 R6). -/
inductive PowerState where
  /-- Input below turn-on, or the stage off after an undervoltage. -/
  | off
  /-- Off after an overcurrent or overvoltage until the input has stayed low (R328). -/
  | latchedOff
  /-- Rails of the manager die only; why. -/
  | standby
  /-- Powered down by a cold command; turns on again after 100 ms (16 R366). -/
  | coldWait
  | on
  deriving DecidableEq, Repr

/-- Where the boot stands (16 R371, R372). -/
inductive BootPhase where
  | cold
  | ready
  | warm
  deriving DecidableEq, Repr

/-- Power, thermal and calibration (14 R328-R339; 00 R5). rails: CORE, SRAM, HBM_VPP, HBM_VDD, HBM_VDDQ, MGR, SERDES_A, SERDES_H in thirds of a microvolt, 0 while off (R329); align: what the alignment of the boot under way will find; input: the input voltage last sampled, in mV; adjAt: the count of the last adjustment; lastZK: ZBLK and KCYC of every engine then (R334). -/
structure PowerUnit where
  state : PowerState
  cls : BitVec 2
  calBad : Bool
  thermCrit : Bool
  pwrFail : Bool
  overP : Bool
  vinHigh : Bool
  vinLow : Bool
  vin : BitVec 16
  iin : BitVec 16
  pAdj : BitVec 16
  lAdj : BitVec 16
  z : BitVec 16
  k : BitVec 8
  temps : SensorReadings
  thermAlert : Bool
  pwrGood : Bool
  inLowBand : Bool
  inHighBand : Bool
  underNs : Option Nat
  overNs : Option Nat
  hiNs : Option Nat
  ampNs : Option Nat
  lowSince : Option Nat
  powerSum : Nat
  samples : Nat
  adjAt : Option Nat
  lastZK : List (Nat × Nat)
  aboveClass : Nat
  cal : CalSet
  downAt : Nat
  rails : Vector Nat 8
  align : Option AlignFault
  input : Nat
  deriving DecidableEq, Repr

/-- A deliberate frequency change chosen and not ended (12 R291, R292). settled: the core rail stands where its first step needs it. -/
structure FreqChange where
  n : Nat
  target : Nat
  old : Nat
  settled : Bool
  started : Bool
  nextStep : Nat
  deriving DecidableEq, Repr

/-- Oscillator and time base (12 R285-R298). sample: the count as the present compute cycle began (R297). -/
structure ClockUnit where
  running : Bool
  cycle : BitVec 64
  setMhz : Nat
  shownMhz : BitVec 12
  target : BitVec 12
  excur : BitVec 16
  lowest : BitVec 10
  change : Option FreqChange
  deferred : Option Nat
  endedAt : Option Nat
  tb : BitVec 64
  sample : BitVec 64
  shadow : BitVec 32
  adj : BitVec 32
  sinceSlew : Nat
  refLoss : Bool
  refBad : Bool
  refLost : Bool
  rootCopy : BitVec 64
  offsetDraw : Nat
  stretchMgr : BitVec 32
  stretchNet : BitVec 32
  deriving DecidableEq, Repr

/-- Record and replay (12 R300-R305). -/
structure RecordUnit where
  rrCnt : BitVec 8
  rrBase : BitVec 8
  part : PartId
  mode : BitVec 2
  lost : BitVec 24
  incomplete : Bool
  diverged : Bool
  bytes : BitVec 38
  div : BitVec 64
  staged : List (List Byte)
  stopped : Bool
  region : List (List Byte)
  cursor : Nat
  seqPos : Nat
  seqNo : Nat
  deriving DecidableEq, Repr

/-- Assize control and the weir (13 R312-R326). reading: the command that a register write started and whose image is being read; crossing: a command that waits for the die-to-die link (17 R386); period: the weir period begun last; passed: ports whose first received slot a period has admitted; kept: for each partition, the image whose MANIFEST and CORE sections are its own. -/
structure AssizeUnit where
  pmask : BitVec 8
  addr : BitVec 64
  relTb : BitVec 64
  code : BitVec 8
  stage : BitVec 4
  sigFail : BitVec 4
  busy : Bool
  digest : BitVec 64
  loaded : Option Image
  kept : List (Nat × Image)
  applying : Option Applying
  reading : Option (Nat × Requester)
  crossing : Option (Nat × BitVec 8 × Requester)
  floor : Nat
  ceil : Nat
  boost : Bool
  owners : List (List (BitVec 128))
  energy : BitVec 20
  acts : List (Nat × Activity)
  waiting : List (Nat × Transfer)
  passed : List PortId
  period : Nat
  deriving DecidableEq, Repr

/-- The host port (15 R340-R353). rings: doorbells that have reached the manager die. MSI-X vectors: 0-2047 of PF0, 2048 + 32 (f - 1) + v of VF f. -/
structure HostUnit where
  act : BitVec 8
  free : Bool
  hbmEn : BitVec 8
  spEn : BitVec 8
  sessions : List (Nat × Session)
  bells : List Doorbell
  rings : Nat
  masked : BitVec 4096
  msixPend : BitVec 4096
  table : Sparse 96
  d3hot : Bool
  linkUp : Bool
  deriving DecidableEq, Repr

/-- Life cycle, keys, alarm, resets, TAP and management (16; 15 R364, R365). assizeKey: the assize verification key, x coordinate above y; nonce: the secured session's; device: the device identity; calParts: pieces of a CAL_WRITE that have arrived in the secured session, by offset; ide: streams with keys, ideStopped: streams whose keys were erased (R378); storageArmed, storageTripped: the storage indicator (18 R414). -/
structure SecurityUnit where
  lcs : BitVec 2
  reprov : BitVec 2
  aik : Bool
  storageKey : Bool
  verifyKey : Bool
  assizeKey : BitVec 768
  device : BitVec 64
  nonce : BitVec 256
  calParts : List (Nat × List Byte)
  storageArmed : Bool
  storageTripped : Bool
  sessionKeys : Bool
  policy : BitVec 15
  alarms : BitVec 16
  wipe : Bool
  tamperOpen : Bool
  tamperClosedAt : Option Nat
  tamperArmed : Bool
  trig : BitVec 5
  cause : BitVec 4
  bank : Bool
  bootFail : Bool
  alignFail : Bool
  ready : Bool
  rstPmask : BitVec 8
  phase : BootPhase
  tap : BitVec 3
  ide : BitVec 5
  ideStopped : BitVec 5
  fwVersion : BitVec 16
  fwOther : BitVec 16
  fwPending : Option FirmwareImage
  fwMin : BitVec 16
  deriving DecidableEq, Repr

/-- What leaves the part (the model's own log of outputs; DESIGN CHOICE, log 7). -/
inductive Output where
  /-- An MSI-X message of a PF0 vector (15 R348) or of a session's function. -/
  | msix (vec : Nat)
  /-- A completion or output written to host memory: address and bytes. -/
  | hostWrite (addr : Nat) (data : List Byte)
  /-- A read of host memory: address and length (15 R350). -/
  | hostRead (addr : Nat) (len : Nat)
  /-- Data a host read returns; none: Completer Abort (15 R346). -/
  | readData (data : Option (List Byte))
  /-- An advisory non-fatal Unsupported Request logged against PF0 (15 R344). -/
  | advisoryError
  /-- An answer over MCTP, PLDM or SPDM: accepted or refused, with its bytes. -/
  | mgmt (accepted : Bool) (data : List Byte)
  /-- An error completion to the manager module for a command of it (01 R24, 13 R312). -/
  | commandError
  /-- A rail set to a voltage in thirds of a microvolt (14 R329-R331). -/
  | rail (r : Fin 8) (volts : Nat)
  /-- The 256 bytes of a flit sent on a fabric port (15 R355). -/
  | flit (port : PortId) (bytes : List Byte)
  /-- An answer of this module to another module's line read. -/
  | fabricLine (port : PortId) (data : Option Line)
  deriving DecidableEq, Repr

/-- W1C bits that the part sets (00 R12). -/
inductive StickyBit where
  | vinLow
  | vinHigh
  | refBad
  | refLoss
  | trig (t : Nat)
  deriving DecidableEq, Repr

/-- The part. justSet: W1C bits set in the present cycle of the manager die, which a clear of that cycle leaves set (00 R12). soft: accesses of the manager die under way, softDone: those whose waiter has not yet taken them, softNext: the number of the next one, softUsed: slots that accesses of no schedule took in the present cycle (04 R84). -/
structure State where
  pending : List Instr
  fresh : Nat
  grade : Grade
  clk : ClockUnit
  justSet : List StickyBit
  mem : List Host.Cell
  wbuf : List (Nat × Line)
  soft : List SoftJob
  softDone : List SoftJob
  softNext : Nat
  softUsed : List Nat
  cores : Vector Core 64
  parts : Vector Part 8
  pcs : List (Nat × PseudoChannel)
  transit : List HbmTransit
  hbm : Vector Stack 6
  net : List Msg
  mgrFromDie : Vector Nat 4
  mgrFromFab : Vector Nat 4
  services : List Service
  asz : AssizeUnit
  rr : RecordUnit
  host : HostUnit
  fab : FabricState
  ev : EventStore
  pow : PowerUnit
  sec : SecurityUnit
  out : List Output
  deriving DecidableEq, Repr

/-! ## The state right after a cold reset -/

/-- A control unit as after a cold reset: the spec gives C, P, K and the fetch address no value there (DESIGN CHOICE, log 4). -/
def ControlUnit.reset : ControlUnit :=
  { c := .replicate 8 0, p := .replicate 16 0, k := .replicate 4 false, pc := 0, redirect := none, reps := [],
    finished := false, finCyc := 0, halted := false, waiting := false, deadline := none, wait := 0 }

/-- The halt record at reset (03 R75). -/
def HaltRecord.reset : HaltRecord :=
  { valid := false, first := false, inflight := false, slot := 0, reason := 0, addr := 0, icount := 0, detail := 0, tb := 0 }

/-- The vector engine at reset (07 R163). -/
def VectorUnit.reset : VectorUnit :=
  { v := .replicate 32 0, q := .replicate 8 0, flags := 0, pend := [] }

/-- A matrix engine at reset (05 R107, R133, R135); the spec gives group partials and A windows no reset value (DESIGN CHOICE, log 4). -/
def MatrixEngine.reset : MatrixEngine :=
  { acc0 := 0, acc1 := 0, latch := 0, shp0 := none, shp1 := none, ops := [], drains := [], mrql := [], reuseA := none,
    reuseB := none, group := [], window := .replicate 128 0, gated := 0, present := none, kcyc := 0, zblk := 0 }

/-- The stream engine at reset (08 R216, 09 R235). -/
def StreamUnit.reset : StreamUnit :=
  { chains := .replicate 16 none, latches := .replicate 16 none, budgets := [], path := 0, blocks := [], nextId := 0, waiting := [], board := [],
    dropped := 0, lag := 0, late := 0, sdesc := 0, overrun := 0, skipped := 0, clamped := 0, coll := 0 }

/-- The sync unit at reset (10 R257). -/
def SyncUnit.reset : SyncUnit :=
  { s := .replicate 48 0, cap := .replicate 48 0, scope := 0, bar := .replicate 16 .idle, tmout := 0, wcyc := 0 }

/-- The message unit at reset (11 R282). -/
def MessageUnit.reset : MessageUnit :=
  { rq := [], rqHeld := .replicate 4 0, rp := [], rpHeld := 0, handler := none, staging := .replicate 16 none, txHeld := [],
    gen := 0, fab := false, peers := 0, c0res := 0, rpDepth := 0, rqDepth := 0, extra := 0, auto := 0, nakRx := 0, closedTx := 0 }

/-- A core's assize fields and error counters at reset (04 R85, R87, R90, R96, R103; 13 R310). -/
def CoreConfig.reset : CoreConfig :=
  { region := .replicate 16 0, tshape0 := 0, tshape1 := 0, legacy := false, hnd := [], codeBase := 0, codeLen := 0,
    entry := 0, armedCode := none, oldCode := none, granule := 0, scrubPasses := 0, tileCe := 0, ue := 0, ce := 0, poison := [],
    scrubAt := 0, scrubBack := none, lastCe := 0, lastTileCe := 0 }

/-- A core at reset. -/
def Core.reset : Core :=
  { ctl := .reset, halt := .reset, vec := .reset, mx := .replicate 4 .reset, str := .reset, syn := .reset, mu := .reset,
    cfg := .reset }

/-- No input slot. -/
def InputSlot.none : InputSlot :=
  { valid := false, core := 0, base := 0, h := 0, cls := 0, first := 0, spacing := 0, k := 0, readyFor := 0,
    placing := Option.none, fetchOwed := 0, filled := false }

/-- A barrier root with nothing under way. -/
def BarrierRoot.none : BarrierRoot :=
  { coming := [], arrived := 0, full := Option.none, going := [], spanDue := 0, spanReady := false,
    spanCommit := false, spanWaiting := false }

/-- An undefined partition record. -/
def PartsRecord.none : PartsRecord :=
  { valid := false, x0 := 0, y0 := 0, w := 0, h := 0, pcBase := 0, b := 0, ilv := false, refm := false }

/-- A partition at reset: empty (12 R299; 13 R312; 16 R367). -/
def Part.reset : Part :=
  { pr := .none, pstate := .empty, inrst := false, rstAsked := false, stopAsked := false, icount := 0, cyc := 0, total := 0, halt := 0, late := 0, retry := 0,
    gover := 0, fref := 0, pend := 0, tb0 := 0, tbEnd := 0, cycDone := false, issued := false, holds := [], checked := 0,
    haltLimit := Option.none, haltFirst := 0, haltTold := false, release := Option.none, refreshed := false, slots := .replicate 32 .none,
    roots := .replicate 16 .none, signals := [], armed := Option.none, committed := Option.none, txnIcount := 0, txnId := 0, txnResult := 0,
    taskEnd := false, endErrs := [], halting := [], resv := [], used := [] }

/-- A pseudo-channel with nothing queued (08 R217). -/
def PseudoChannel.reset : PseudoChannel :=
  { queue := [], serving := none, reads := [], lastStart := none, busyTo := 0, missed := 0, inserted := 0, refreshes := 0,
    lastRefresh := 0, lastMiss := none }

/-- An activity with no budget (13 R324). -/
def Activity.reset : Activity := { owner := 0, cls := 0, budget := 0, credit := 0, wait := 0 }

/-- A closed session (15 R349). -/
def Session.reset : Session :=
  { valid := false, func := 0, act := 0, part := 0, slot := 0, vec := 0, nring := 0, inRing := 0, outRing := 0, cpl := 0,
    outLn := 0, inLn := 0, pend := 0, placed := 0, rung := 0, bells := 0, outs := 0, cpls := 0 }

/-- A fabric port at reset (15 R359, R363). -/
def Port.reset : Port :=
  { epoch := 0, fresh := true, lreset := 0, replay := 0, up := false, inUse := false, txSeq := 0, acked := 0, rxSeq := 0, rxValid := false,
    buffer := [], replays := 0, replaying := [], rnakOwed := false, noticeOwed := true, credits := 512, creditOwed := 0, reqOwed := .replicate 4 0, through := [], rx := [], rxNew := [], barred := [], tx := [], unacked := [], lastValid := 0, lastAck := 0 }

/-- No FABRIC section loaded: standalone (15 R361). -/
def FabricConfig.reset : FabricConfig :=
  { modid := 0, role := 0, flow := 0, mgrid := 0, nmod := 0, ports := 0, route := 0, spans := [] }

/-- Fabric and link state at reset (15 R363; 17 R386). -/
def FabricState.reset : FabricState :=
  { cfg := .reset, ports := .replicate 8 .reset, tbOfs := 0, tbAligned := false, spanCount := [], stamps := none,
    d2dEpoch := 0, d2dResets := 0, d2dRetries := 0, d2dReplays := [], d2dTraining := false, e2e := [], resync := [], reqUsed := [], asked := [] }

/-- An empty event store (17 R394: kept fields; DESIGN CHOICE, log 5). -/
def EventStore.reset : EventStore :=
  { store := [], nextSeq := 0, lost := .replicate 8 0, rdSeq := 0, latched := none, undurable := [] }

/-- Sensors before their first reading (14 R337). -/
def SensorReadings.zero : SensorReadings := { compute := 0, hbm := .replicate 6 0, mgr := 0, stage := 0 }

/-- The calibration set a part is shipped with (14 R338, DESIGN CHOICE, log 5). -/
def CalSet.factory : CalSet := { magic := 0x4C414343, user := false, crcOk := true, crc := 0, body := [] }

/-- Power unit after a cold reset with cold-plate straps, every rail up at the alignment set point, 48 V at the input (14 R329, R337; DESIGN CHOICE, log 5). -/
def PowerUnit.reset : PowerUnit :=
  { state := .on, cls := 2, calBad := false, thermCrit := false, pwrFail := false, overP := false, vinHigh := false,
    vinLow := false, vin := 0, iin := 0, pAdj := 0, lAdj := 0, z := 0, k := 0, temps := SensorReadings.zero,
    thermAlert := false, pwrGood := true, inLowBand := false, inHighBand := false, underNs := none, overNs := none, hiNs := none,
    ampNs := none, lowSince := none, powerSum := 0, samples := 0, adjAt := none, lastZK := [], aboveClass := 0,
    cal := CalSet.factory, downAt := 0
    rails := Vector.mk #[1825000, 2400000, 5400000, 3150000, 2100000, 2400000, 2700000, 3600000] (by decide), align := none, input := 48000 }

/-- Clocks after a cold reset (12 R288, R290, R295, R298). -/
def ClockUnit.reset : ClockUnit :=
  { running := true, cycle := 0, setMhz := 1000, shownMhz := 0, target := 0, excur := 0, lowest := 0x3FF, change := none,
    deferred := none, endedAt := none, tb := 0, sample := 0, shadow := 0, adj := 0, sinceSlew := 0, refLoss := false, refBad := false,
    refLost := false, rootCopy := 0, offsetDraw := 0, stretchMgr := 0, stretchNet := 0 }

/-- Record and replay at reset (12 R300, R303). -/
def RecordUnit.reset : RecordUnit :=
  { rrCnt := 0, rrBase := 0, part := 0, mode := 0, lost := 0, incomplete := false, diverged := false, bytes := 0, div := 0,
    staged := [], stopped := false, region := [], cursor := 0, seqPos := 0, seqNo := 0 }

/-- Assize control at reset: BUSY reads 1 (13 R312). -/
def AssizeUnit.reset : AssizeUnit :=
  { pmask := 0, addr := 0, relTb := 0, code := 0, stage := 0, sigFail := 0, busy := true, digest := 0, loaded := none, kept := [],
    applying := none, reading := none, crossing := none, floor := 0, ceil := 0, boost := false, owners := [], energy := 0, acts := [], waiting := [], passed := [], period := 0 }

/-- The host port at reset (15 R346, R349); MSI-X vectors are masked as PCIe gives (PRESUMED, log 6). -/
def HostUnit.reset : HostUnit :=
  { act := 0, free := false, hbmEn := 0, spEn := 0, sessions := [], bells := [], rings := 0, masked := BitVec.allOnes 4096,
    msixPend := 0, table := [], d3hot := false, linkUp := true }

/-- The assize verification key at reset, which the spec gives no value: the base point of P-384, the public key of the private key 1 (DESIGN CHOICE, log 5). -/
def keyAtReset : BitVec 768 :=
  0xaa87ca22be8b05378eb1c71ef320ad746e1d3b628ba79b9859f741e082542a385502f25dbf55296c3a545e3872760ab73617de4a96262c6f5d9e98bf9292dc29f8f41dbd289a147ce9da3113b5f0b8c00a60b1ce1d7e819d7a431d7c90ea0e5f

/-- The security block after a cold reset of a DEPLOYED part with all its keys (16 R382, DESIGN CHOICE, log 5). -/
def SecurityUnit.reset : SecurityUnit :=
  { lcs := 2, reprov := 0, aik := true, storageKey := true, verifyKey := true, assizeKey := keyAtReset, device := 0, nonce := 0, calParts := [],
    storageArmed := true, storageTripped := false, sessionKeys := false, policy := 0, alarms := 0,
    wipe := false, tamperOpen := false, tamperClosedAt := none, tamperArmed := true, trig := 0, cause := 1, bank := false,
    bootFail := false, alignFail := false, ready := false, rstPmask := 0, phase := .cold, tap := 0, ide := 0, ideStopped := 0, fwVersion := 1, fwOther := 1, fwPending := none,
    fwMin := 0 }

/-- The part right after a cold reset, its boot still running: READY 0, BUSY 1 (16 R371). -/
def State.reset : State :=
  { pending := [], fresh := 0, grade := .nml5664, clk := .reset, justSet := [], mem := [], wbuf := [],
    soft := [], softDone := [], softNext := 0, softUsed := [],
    cores := .replicate 64 .reset, parts := .replicate 8 .reset, pcs := [], transit := [],
    hbm := .replicate 6 { ue := 0, ce := 0, hot := false, lastCe := 0 }, net := [], mgrFromDie := .replicate 4 0,
    mgrFromFab := .replicate 4 0, services := [], asz := .reset, rr := .reset, host := .reset, fab := .reset, ev := .reset,
    pow := .reset, sec := .reset, out := [] }

end Sys2Proof.Machine
end

