-- ==== Sys2Proof/WellFormed.lean ====
section
/-! DEFINITION. WellFormed.lean: which commands are well formed: operands in the ranges the spec gives them. An ill-formed slot instruction still has a meaning (it halts its core, R54), and so has a register access of another size (it is dropped, R344); WellFormed says which commands a correct sender sends. -/

namespace Sys2Proof

/-- Keys strictly rising and no zero value: the canonical form of sparse data. -/
def Sparse.wf {w : Nat} (m : Sparse w) : Bool :=
  (m.map Prod.fst).Pairwise (· < ·) && m.all (fun e => e.2 != 0)

/-- A read finds wrong between one word and the eight of a line (R86); a weight-class line has two, which the count of its errors sees to. -/
def EccResult.wf : EccResult → Bool
  | .clean => true
  | .corrected n => decide (1 ≤ n && n ≤ 8)
  | .uncorrectable bad fixed => decide (1 ≤ bad && bad + fixed ≤ 8)

/-- Error findings, one for each address, in rising order. -/
def errsWf (l : List (Nat × EccResult)) : Bool := (l.map Prod.fst).Pairwise (· < ·) && l.all (fun e => e.2.wf)

/-- An image's bytes lie within its length (R306). -/
def Image.wf (m : Image) : Bool := m.bytes.wf && m.bytes.all (fun e => decide (e.1 < m.len))

/-- A piece of a calibration set is 256 B long (15 R365). -/
def CalPiece.wf (x : CalPiece) : Bool := x.bytes.length == 256

/-- A flit carries three slots (R355). -/
def Flit.wf (f : Flit) : Bool := f.slots.length == 3

/-- An aligned access of 4 B or 8 B (R344). -/
def accessWf (off size : Nat) : Bool := (size == 4 || size == 8) && off % size == 0

/-- A window access moves at least a byte, at most 4,096 (R340), inside the window. -/
def WindowAccess.wf (off top : Nat) : WindowAccess → Bool
  | .read n => decide (1 ≤ n && n ≤ 4096 && off + n ≤ top)
  | .write data => decide (1 ≤ data.length && data.length ≤ 4096 && off + data.length ≤ top)

/-- Well-formed commands. -/
def Instr.wf : Instr → Bool
  | .bundleIssue _ errs => errsWf errs
  | .nop _ _ => true
  | .halt _ _ => true
  | .fin _ _ => true
  | .cset _ _ => true
  | .cadd _ _ => true
  | .caddc _ _ => true
  | .psetl _ _ => true
  | .pseth _ _ => true
  | .padd _ _ => true
  | .pmac _ _ => true
  | .kcmpc _ _ => true
  | .kcmpcc _ _ => true
  | .kcmpp _ _ => true
  | .kset _ _ => true
  | .kop _ _ => true
  | .br _ _ => true
  | .bk _ _ => true
  | .bp _ _ => true
  | .rep _ _ => true
  | .sluiceHoldStart _ => true
  | .heldCycle _ => true
  | .holdRelease _ => true
  | .schn _ _ => true
  | .chainLatchStart _ _ => true
  | .descriptorLineRead _ _ ecc => ecc.wf
  | .blockIssue _ _ => true
  | .blockLagIssue _ => true
  | .stile _ _ => true
  | .sttx1 _ _ => true
  | .sttx2 _ _ => true
  | .sttx4 _ _ => true
  | .sref _ _ => true
  | .lineAccess _ _ ecc => ecc.wf
  | .lineArrival _ _ => true
  | .lineWrite _ _ => true
  | .lateSourceAccess _ _ ecc => ecc.wf
  | .lateLineWrite _ _ => true
  | .stagingFreeSend _ => true
  | .transposeLineRelease _ _ => true
  | .quadrantLineRelease _ _ => true
  | .mxsLineRelease _ _ => true
  | .indexLineRead _ _ ecc => ecc.wf
  | .indexExamine _ _ => true
  | .gatherTurn _ _ ecc => ecc.packed.wf && ecc.table.wf
  | .indexedWrite _ _ => true
  | .hbmQueueEntry _ _ => true
  | .hbmRequestStart _ _ => true
  | .hbmReadReady _ _ ecc => ecc.wf
  | .hbmWriteDone _ _ => true
  | .normalRefresh _ _ => true
  | .safetyNetRefresh _ _ => true
  | .refreshDone _ _ => true
  | .scrubRead _ ecc => ecc.wf
  | .scrubWriteback _ => true
  | .mmaI8I8 _ _ _ => true
  | .mmaI8I4 _ _ _ => true
  | .mmaI4I8 _ _ _ => true
  | .mmaI4I4 _ _ _ => true
  | .mmaE4E4 _ _ _ => true
  | .mmaE4E5 _ _ _ => true
  | .mmaE5E4 _ _ _ => true
  | .mmaE5E5 _ _ _ => true
  | .mmaE4F4 _ _ _ => true
  | .mmaF4E4 _ _ _ => true
  | .mmaE5F4 _ _ _ => true
  | .mmaF4E5 _ _ _ => true
  | .mmaF4F4 _ _ _ => true
  | .mmaBf16 _ _ _ => true
  | .mmaFp16 _ _ _ => true
  | .mmaFp32 _ _ _ => true
  | .cmmaI8 _ _ _ => true
  | .cmmaE4 _ _ _ => true
  | .cmmaE5 _ _ _ => true
  | .smma4I8I8 _ _ _ => true
  | .smma4I8I4 _ _ _ => true
  | .smma4I4I8 _ _ _ => true
  | .smma4I4I4 _ _ _ => true
  | .smma4E4E4 _ _ _ => true
  | .smma4E4E5 _ _ _ => true
  | .smma4E5E4 _ _ _ => true
  | .smma4E5E5 _ _ _ => true
  | .smma4E4F4 _ _ _ => true
  | .smma4F4E4 _ _ _ => true
  | .smma4E5F4 _ _ _ => true
  | .smma4F4E5 _ _ _ => true
  | .smma4F4F4 _ _ _ => true
  | .smma2I8I8 _ _ _ => true
  | .smma2I8I4 _ _ _ => true
  | .smma2I4I8 _ _ _ => true
  | .smma2I4I4 _ _ _ => true
  | .smma2E4E4 _ _ _ => true
  | .smma2E4E5 _ _ _ => true
  | .smma2E5E4 _ _ _ => true
  | .smma2E5E5 _ _ _ => true
  | .smma2E4F4 _ _ _ => true
  | .smma2F4E4 _ _ _ => true
  | .smma2E5F4 _ _ _ => true
  | .smma2F4E5 _ _ _ => true
  | .smma2F4F4 _ _ _ => true
  | .lmmaI8I8 _ _ _ => true
  | .lmmaI8I4 _ _ _ => true
  | .lmmaI4I8 _ _ _ => true
  | .lmmaI4I4 _ _ _ => true
  | .lmmaE4E4 _ _ _ => true
  | .lmmaE4E5 _ _ _ => true
  | .lmmaE5E4 _ _ _ => true
  | .lmmaE5E5 _ _ _ => true
  | .lmmaE4F4 _ _ _ => true
  | .lmmaF4E4 _ _ _ => true
  | .lmmaE5F4 _ _ _ => true
  | .lmmaF4E5 _ _ _ => true
  | .lmmaF4F4 _ _ _ => true
  | .lmmaBf16 _ _ _ => true
  | .lmmaFp16 _ _ _ => true
  | .lmmaFp32 _ _ _ => true
  | .lcmmaI8 _ _ _ => true
  | .lcmmaE4 _ _ _ => true
  | .lcmmaE5 _ _ _ => true
  | .accWrite _ _ => true
  | .mrql _ _ _ => true
  | .mdrn _ _ _ => true
  | .drainChunkPresent _ _ => true
  | .vmov _ _ => true
  | .vmovi _ _ => true
  | .vsel _ _ => true
  | .vadd _ _ => true
  | .vsub _ _ => true
  | .vmul _ _ => true
  | .vfma _ _ => true
  | .vmin _ _ => true
  | .vmax _ _ => true
  | .vabs _ _ => true
  | .vneg _ _ => true
  | .vand _ _ => true
  | .vor _ _ => true
  | .vxor _ _ => true
  | .vshl _ _ => true
  | .vshr _ _ => true
  | .vsra _ _ => true
  | .vcmp _ _ => true
  | .qop _ _ => true
  | .vcvt _ _ => true
  | .vdq _ _ => true
  | .vqg _ _ => true
  | .vsf _ _ => true
  | .vred _ _ => true
  | .vld _ _ => true
  | .vst _ _ => true
  | .vflgr _ _ => true
  | .vflgc _ _ => true
  | .vectorResultWrite _ errs => errsWf errs
  | .ssig _ _ _ => true
  | .srel _ _ => true
  | .swait _ _ => true
  | .cfl _ _ => true
  | .cwt _ _ => true
  | .waitTimeout _ => true
  | .signalArrival _ => true
  | .barrierRootArrival _ _ => true
  | .barrierCompletionSend _ _ => true
  | .barrierCompletionArrival _ _ => true
  | .spanCompletionDue _ _ => true
  | .msreq _ _ => true
  | .mrecv _ _ => true
  | .mtxq _ _ => true
  | .mtxc _ _ => true
  | .requestEnqueue _ => true
  | .replyEnqueue _ => true
  | .handlerDispatch _ => true
  | .handlerSignal _ => true
  | .mput _ => true
  | .mrply _ ecc => ecc.wf
  | .maadd _ ecc => ecc.wf
  | .handlerEnd _ => true
  | .managerForward _ _ => true
  | .sout _ errs => errsWf errs
  | .otget _ _ errs => errsWf errs
  | .otput _ _ errs => errsWf errs
  | .otMoveDone _ => true
  | .flitReceive _ bytes _ => bytes.length == 256
  | .ackTimeout _ => true
  | .slotMessage _ => true
  | .slotLineWrite _ => true
  | .slotLineRead _ ecc => ecc.wf
  | .slotBarrierArrival _ => true
  | .slotBarrierCompletion _ => true
  | .slotTime _ => true
  | .slotManagementCommand _ cmd => cmd.img.wf
  | .epochNotice _ => true
  | .linkIdleTimeout _ => true
  | .linkRetrainDone _ _ => true
  | .timeExchange _ => true
  | .d2dFlitReceive _ => true
  | .d2dRetrainDone => true
  | .timeBaseSync => true
  | .bar2Access off acc errs => acc.wf off.toNat (2 ^ 31) && errsWf errs
  | .bar4Access off acc errs => acc.wf off.toNat (2 ^ 38) && errsWf errs
  | .registerWrite _ at_ size _ => at_.fn ≤ 64 && accessWf at_.off.toNat size
  | .tbCountLoRead size => (size == 4 || size == 8)
  | .oscStatClear off size _ => accessWf off.toNat size
  | .doorbell _ fn _ _ => decide (fn ≤ 64)
  | .sesCtxWrite _ off size _ => accessWf off.toNat size
  | .slotEmptyWrite _ _ => true
  | .inputPlacement _ _ => true
  | .placementComplete _ _ _ => true
  | .placementSuppress _ _ => true
  | .vfFlr vf => decide (1 ≤ vf && vf ≤ 64)
  | .pf0Flr => true
  | .conventionalReset => true
  | .d3hotEntry => true
  | .d0Return => true
  | .load _ img _ => img.wf
  | .assizeApply img => img.wf
  | .release _ _ => true
  | .releaseCycle _ => true
  | .stop _ _ => true
  | .arm _ img _ => img.wf
  | .cancel _ _ => true
  | .weirPeriod => true
  | .coldReset _ => true
  | .railFail _ => true
  | .bootReady => true
  | .vinSample _ _ => true
  | .undervoltageShutdown => true
  | .overvoltageShutdown => true
  | .overcurrentShutdown => true
  | .mgrLoss => true
  | .envelopeAdjust => true
  | .railSettleCheck _ => true
  | .freqChangeStart => true
  | .freqRampStep => true
  | .tempSample _ => true
  | .droopResponse _ => true
  | .coreUv => true
  | .refclkOutOfTolerance => true
  | .refclkLoss => true
  | .refclkReturn => true
  | .calRead _ => true
  | .calWrite _ piece => piece.wf
  | .rrModeOff _ _ => true
  | .rrModeRecord _ _ => true
  | .rrModeReplay _ _ => true
  | .eventRecordDurable => true
  | .ceSummaryCheck => true
  | .evrRdseqWrite off size _ => accessWf off.toNat size
  | .evrRead _ _ => true
  | .evrClear _ _ _ => true
  | .mgrRstWarm _ => true
  | .mgrRstPartition _ _ => true
  | .mgrRstCold _ => true
  | .mctpResetCold _ => true
  | .mctpResetWarm _ => true
  | .mctpResetPartition _ _ => true
  | .partitionWipeDone _ => true
  | .warmResetReady _ => true
  | .lcProvision _ _ _ => true
  | .lcDeploy _ _ => true
  | .lcReturn _ _ => true
  | .tamperOpen => true
  | .glitch => true
  | .tapBypass => true
  | .tapIdcode => true
  | .tapSamplePreload => true
  | .tapExtest => true
  | .tapClamp => true
  | .tapHighz => true
  | .tapPrivate => true
  | .pldmFirmwareUpdate _ => true
  | .pldmSensorRead => true
  | .pldmDiscovery => true
  | .spdmGetCertificate => true
  | .spdmChallenge _ => true
  | .spdmGetMeasurements _ => true
  | .spdmKeyExchange _ => true
  | .ideKm _ _ => true
  | .tamperLoopClose => true
  | .shutdownLatchRelease => true
  | .coldCommandTurnOn _ => true
  | .msixUnmask _ => true
  | .undefinedServiceRequest _ => true
  | .requestSendFromHandler _ => true
  | .recordStagingWrite => true
  | .flitTransmit _ => true
  | .changeSpacingEnd => true
  | .stretchedCycle _ => true
  | .timeBaseTick => true

end Sys2Proof
end

