-- ==== Sys2Proof/Machine/Ops.lean ====
section
/-! DEFINITION. Ops.lean: the named operations over State that every meaning shares: access to cores and partitions, device memory, the address map, event records, interrupts, messages on their way, closing and halting a core, stopping a partition. -/

namespace Sys2Proof.Machine

/-- The outcome type of every meaning. -/
abbrev Result := Host.Outcome State Fault Refusal

/-! ## Fixed lists -/

/-- All core ids in ascending order. -/
def allCores : List CoreId :=
  [0, 1, 2, 3, 4, 5, 6, 7, 8, 9, 10, 11, 12, 13, 14, 15, 16, 17, 18, 19, 20, 21, 22, 23, 24, 25, 26, 27, 28, 29, 30, 31,
   32, 33, 34, 35, 36, 37, 38, 39, 40, 41, 42, 43, 44, 45, 46, 47, 48, 49, 50, 51, 52, 53, 54, 55, 56, 57, 58, 59, 60, 61,
   62, 63]

/-- All partitions in ascending order. -/
def allParts : List PartId := [0, 1, 2, 3, 4, 5, 6, 7]

/-- The four engines. -/
def allEngs : List EngId := [0, 1, 2, 3]

/-- The sixteen barrier ids, chain slots or tiles. -/
def all16 : List (Fin 16) := [0, 1, 2, 3, 4, 5, 6, 7, 8, 9, 10, 11, 12, 13, 14, 15]

/-- The thirty-two input slots. -/
def all32 : List (Fin 32) :=
  [0, 1, 2, 3, 4, 5, 6, 7, 8, 9, 10, 11, 12, 13, 14, 15, 16, 17, 18, 19, 20, 21, 22, 23, 24, 25, 26, 27, 28, 29, 30, 31]

/-! ## Bits and bytes (00 R9: little-endian) -/

/-- Bits hi:lo of a word, as a number. -/
def fld {n : Nat} (w : BitVec n) (hi lo : Nat) : Nat := (w.extractLsb' lo (hi - lo + 1)).toNat

/-- One bit of a word. -/
def bit {n : Nat} (w : BitVec n) (i : Nat) : Bool := w.getLsbD i

/-- The n low bytes of a number, least significant first. -/
def leBytes : Nat → Nat → List Byte
  | 0, _ => []
  | n + 1, v => BitVec.ofNat 8 v :: leBytes n (v / 256)

/-- The number that bytes spell, least significant first. -/
def leNat (l : List Byte) : Nat := l.foldr (fun b n => b.toNat + 256 * n) 0

/-- A number as n bytes, most significant byte first. -/
def beBytes (n v : Nat) : List Byte := (leBytes n v).reverse

/-- The number that bytes spell, most significant byte first. -/
def beNat (l : List Byte) : Nat := leNat l.reverse

/-- The bytes of a line. -/
def lineBytes (l : Line) : List Byte := leBytes 64 l.toNat

/-- The line that bytes fill; missing bytes are 0. -/
def bytesLine (l : List Byte) : Line := BitVec.ofNat 512 (leNat l)

/-- Adds to a counter that saturates. -/
def satAdd {n : Nat} (x : BitVec n) (k : Nat) : BitVec n := BitVec.ofNat n (min (x.toNat + k) (2 ^ n - 1))

/-- Where bit i is b. -/
def setBit {n : Nat} (w : BitVec n) (i : Nat) (b : Bool) : BitVec n :=
  if b then w ||| (1#n <<< i) else w &&& ~~~(1#n <<< i)

/-- The bits lo .. lo+k-1 of w replaced by v. -/
def setFld {n : Nat} (w : BitVec n) (lo k v : Nat) : BitVec n :=
  (w &&& ~~~(BitVec.ofNat n ((2 ^ k - 1) <<< lo))) ||| BitVec.ofNat n ((v % 2 ^ k) <<< lo)

/-- The number of the lowest 1 bit; 0 for the zero word. -/
def lowestBit {n : Nat} (w : BitVec n) : Nat := ((List.range n).find? (fun i => w.getLsbD i)).getD 0

/-- Two's-complement value of the low k bits of a number. -/
def sext (k v : Nat) : Int := if v % 2 ^ k < 2 ^ (k - 1) then (v % 2 ^ k : Nat) else ((v % 2 ^ k : Nat) : Int) - 2 ^ k

/-- The element number i of a list of bytes, 0 outside it. -/
def byteAt (l : List Byte) (i : Nat) : Byte := l.getD i 0

/-! ## Device memory -/

/-- One byte; a byte not listed reads 0 (04 R105). -/
def memRead : List Host.Cell → Nat → Byte
  | [], _ => 0
  | (k, b) :: m, a => if k = a then b else memRead m a

/-- Writes one byte and keeps the canonical form: rising addresses, no zero byte listed. -/
def memWrite : List Host.Cell → Nat → Byte → List Host.Cell
  | [], a, b => if b = 0 then [] else [(a, b)]
  | (k, c) :: m, a, b =>
    if a < k then (if b = 0 then (k, c) :: m else (a, b) :: (k, c) :: m)
    else if a = k then (if b = 0 then m else (a, b) :: m)
    else (k, c) :: memWrite m a b

/-- Writes bytes at ascending addresses. -/
def memWriteBytes (m : List Host.Cell) (a : Nat) : List Byte → List Host.Cell
  | [] => m
  | b :: bs => memWriteBytes (memWrite m a b) (a + 1) bs

/-- The n bytes from an address. -/
def memReadBytes (m : List Host.Cell) (a : Nat) : Nat → List Byte
  | 0 => []
  | n + 1 => memRead m a :: memReadBytes m (a + 1) n

/-- Removes every byte of an address range: it then reads 0. -/
def memWipe (m : List Host.Cell) (lo len : Nat) : List Host.Cell := m.filter (fun e => e.1 < lo || lo + len ≤ e.1)

/-- The canonical form of memory: rising addresses, no entry equal to what an unlisted address reads as. -/
def memWf (m : List Host.Cell) : Bool := (m.map Prod.fst).Pairwise (· < ·) && m.all (fun e => e.2 != 0)

/-- The 64 B line at an address, as a read of the present cycle sees it (04 R82). -/
def State.line (s : State) (a : Nat) : Line := bytesLine (memReadBytes s.mem a 64)

/-! ## Cores and partitions -/

/-- Core c. -/
def State.core (s : State) (c : CoreId) : Core := s.cores[c]

/-- Core c changed. -/
def State.modCore (s : State) (c : CoreId) (f : Core → Core) : State := { s with cores := s.cores.set c (f s.cores[c]) }

/-- Partition p. -/
def State.part (s : State) (p : PartId) : Part := s.parts[p]

/-- Partition p changed. -/
def State.modPart (s : State) (p : PartId) (f : Part → Part) : State := { s with parts := s.parts.set p (f s.parts[p]) }

/-- The control unit of a core changed. -/
def State.modCtl (s : State) (c : CoreId) (f : ControlUnit → ControlUnit) : State :=
  s.modCore c (fun k => { k with ctl := f k.ctl })
/-- The vector engine of a core changed. -/
def State.modVec (s : State) (c : CoreId) (f : VectorUnit → VectorUnit) : State :=
  s.modCore c (fun k => { k with vec := f k.vec })
/-- The stream engine of a core changed. -/
def State.modStr (s : State) (c : CoreId) (f : StreamUnit → StreamUnit) : State :=
  s.modCore c (fun k => { k with str := f k.str })
/-- The sync unit of a core changed. -/
def State.modSyn (s : State) (c : CoreId) (f : SyncUnit → SyncUnit) : State :=
  s.modCore c (fun k => { k with syn := f k.syn })
/-- The message unit of a core changed. -/
def State.modMu (s : State) (c : CoreId) (f : MessageUnit → MessageUnit) : State :=
  s.modCore c (fun k => { k with mu := f k.mu })
/-- The assize fields and error counters of a core changed. -/
def State.modCfg (s : State) (c : CoreId) (f : CoreConfig → CoreConfig) : State :=
  s.modCore c (fun k => { k with cfg := f k.cfg })
/-- One matrix engine changed. -/
def State.modMx (s : State) (c : CoreId) (e : EngId) (f : MatrixEngine → MatrixEngine) : State :=
  s.modCore c (fun k => { k with mx := k.mx.set e (f k.mx[e]) })

/-- Column of a core (00 R3). -/
def coreX (c : CoreId) : Nat := c.val % 8
/-- Row of a core (00 R3). -/
def coreY (c : CoreId) : Nat := c.val / 8

/-- Cores enabled on a grade (02 R47). -/
def Grade.cores : Grade → Nat
  | .nml5664 => 64
  | .nml5656 => 56
  | .nml5648 => 48

/-- Fitted stacks of a grade (02 R47). -/
def Grade.fitted : Grade → Nat → Bool
  | .nml5648, k => k = 0 || k = 1 || k = 3 || k = 4
  | _, k => k < 6

/-- GRADE as registers and images give it (15 R345). -/
def Grade.code : Grade → BitVec 16
  | .nml5664 => 0x5664
  | .nml5656 => 0x5656
  | .nml5648 => 0x5648

/-- A core that the grade enables. -/
def State.enabled (s : State) (c : CoreId) : Bool := c.val < s.grade.cores

/-- Whether a partition record covers a core (13 R309). -/
def PartsRecord.covers (r : PartsRecord) (c : CoreId) : Bool :=
  r.valid && r.x0.toNat ≤ coreX c && coreX c < r.x0.toNat + r.w.toNat && r.y0.toNat ≤ coreY c && coreY c < r.y0.toNat + r.h.toNat

/-- The partition a core belongs to (01 R22). -/
def State.partOf (s : State) (c : CoreId) : Option PartId := allParts.find? (fun p => (s.part p).pr.covers c)

/-- The cores of a partition, in ascending id. -/
def State.coresOf (s : State) (p : PartId) : List CoreId := allCores.filter (fun c => s.partOf c == some p)

/-- Issue count of the bundle at issue in the present cycle. -/
def Part.count (q : Part) : Nat := if q.cycDone && q.issued then q.icount.toNat - 1 else q.icount.toNat

/-- Number of the present oscillator cycle since release. -/
def Part.now (q : Part) : Nat := if q.cycDone then q.cyc.toNat - 1 else q.cyc.toNat

/-- Running or in its halt hold (13 R312). -/
def Part.live (q : Part) : Bool := (q.pstate == .running || q.pstate == .halted) && !q.inrst

/-- A hold, or the halt hold, comes before the bundle at hand (02 R35, R39). -/
def Part.mustHold (q : Part) : Bool :=
  q.holds.any (fun h => h.before == q.icount.toNat) || (match q.haltLimit with | some n => n ≤ q.icount.toNat | none => false)

/-- The partition issues in the present cycle, or has issued. -/
def Part.issuing (q : Part) : Bool :=
  q.live && (if q.cycDone then q.issued else !q.mustHold)

/-- The partition is held in the present cycle. -/
def Part.held (q : Part) : Bool := q.live && (if q.cycDone then !q.issued else q.mustHold)

/-- A core is closed to messages (11 R271). -/
def State.closed (s : State) (c : CoreId) : Bool :=
  match s.partOf c with
  | none => true
  | some p => !(s.part p).live || (s.core c).ctl.halted || ((s.core c).ctl.finished && (s.core c).ctl.finCyc < (s.part p).now)

/-- The time-base count as a core sampled it when the compute cycle began: its copy's fixed offset is within 2 ns (12 R296, R297). -/
def State.coreTb (s : State) (c : CoreId) : BitVec 64 :=
  BitVec.ofNat 64 (s.clk.sample.toNat + Config.timeOffset s.clk.offsetDraw c % 5 - 2)

/-! ## Address map (04 R77, R78, R85) -/

/-- First address of a core's slice. -/
def sliceBase (c : CoreId) : Nat := 0x2000000 * c.val
/-- First address of a core's control block. -/
def blockBase (c : CoreId) : Nat := 0xF000000000 + 0x10000 * c.val
/-- The alias of a tile-register line (04 R102). -/
def tileAlias (c : CoreId) (e : EngId) (t line : Nat) : Nat :=
  0xF800000000 + 0x100000 * c.val + 0x40000 * e.val + 0x4000 * t + 64 * line
/-- First HBM address. -/
def hbmBase : Nat := 0x10000000000
/-- The first address past the HBM range. -/
def hbmEnd : Nat := 0x13600000000

/-- The core whose slice holds an address. -/
def sliceOwner (a : Nat) : Option CoreId := if h : a / 0x2000000 < 64 then some ⟨a / 0x2000000, h⟩ else none

/-- Bank group of a scratchpad address: bits 10:6 (04 R80). -/
def bankGroup (a : Nat) : Nat := a / 64 % 32

/-- The address ranges (first, length) of a core's valid regions (04 R85). -/
def Core.regions (k : Core) (c : CoreId) : List (Nat × Nat) :=
  k.cfg.region.toList.filterMap (fun r =>
    if bit r 63 then some (sliceBase c + fld r 24 16 * 0x10000, fld r 8 0 * 0x10000) else none)

/-- Whether a span lies inside one of some ranges. -/
def insideOne (rs : List (Nat × Nat)) (lo len : Nat) : Bool := rs.any (fun r => r.1 ≤ lo && lo + len ≤ r.1 + r.2)

/-- Whether two spans meet. -/
def meets (lo len lo' len' : Nat) : Bool := lo < lo' + len' && lo' < lo + len

/-- A core's code region as an address range (03 R57). -/
def Core.codeRegion (k : Core) (c : CoreId) : Nat × Nat := (sliceBase c + k.cfg.codeBase.toNat, k.cfg.codeLen.toNat)

/-- A core's code region, and for a write the one of an armed transaction, which reads may reach before the commit (03 R59, 13 R322). -/
def Core.codeSpans (k : Core) (c : CoreId) (write : Bool := true) : List (Nat × Nat) :=
  k.codeRegion c :: (match k.cfg.armedCode with | some (b, n) => if write then [(sliceBase c + b, n)] else [] | none => [])

/-! ## Writing lines -/

/-- Tile, engine, tile number and line of a tile alias address (04 R102). -/
def aliasOf (a : Nat) : Option (CoreId × EngId × Fin 16 × Nat) :=
  if 0xF800000000 ≤ a && a < 0xF804000000 then
    let o := a - 0xF800000000
    some (Fin.ofNat 64 (o / 0x100000), Fin.ofNat 4 (o / 0x40000), Fin.ofNat 16 (o / 0x4000), o / 64 % 256)
  else none

/-- Shape code of a tile (04 R96). -/
def CoreConfig.shape (g : CoreConfig) (e : EngId) (t : Fin 16) : Nat :=
  let w := if e.val < 2 then g.tshape0 else g.tshape1
  w.toNat / 2 ^ (32 * (e.val % 2) + 2 * t.val) % 4

/-- Lines per row of a shape (04 R95). -/
def rowLines : Nat → Nat
  | 0 => 2
  | 1 => 4
  | 2 => 1
  | _ => 8

/-- A reuse latch after a write to a line of a tile: empty if it holds that row (04 R98). -/
def latchAfter (t row : Nat) (r : Option (Fin 16 × Nat)) : Option (Fin 16 × Nat) :=
  match r with
  | some (t', row') => if t'.val = t && row' = row then none else r
  | none => none

/-- What a write of a line clears: a poison mark, a scrub write-back of the line (04 R89), a reuse latch (R98). -/
def State.touch (s : State) (a : Nat) : State :=
  match sliceOwner a with
  | some c => s.modCfg c (fun g => { g with
      poison := g.poison.filter (fun x => x != a),
      scrubBack := match g.scrubBack with | some x => if x.1 = a then none else some x | none => none })
  | none =>
    match aliasOf a with
    | some (c, e, t, ln) =>
      let row := ln / rowLines ((s.core c).cfg.shape e t)
      s.modMx c e (fun m => { m with reuseA := latchAfter t.val row m.reuseA, reuseB := latchAfter t.val row m.reuseB })
    | none => s

/-- A line written at once: a write that no schedule places (04 R84). -/
def State.putLine (s : State) (a : Nat) (l : Line) : State :=
  { s.touch a with mem := memWriteBytes s.mem a (lineBytes l) }

/-- A scheduled write of the present cycle: reads of the next cycle see it (04 R82). -/
def State.laterLine (s : State) (a : Nat) (l : Line) : State := { s with wbuf := s.wbuf ++ [(a, l)] }

/-- The writes of a cycle done, in order. -/
def State.commit (s : State) : State := s.wbuf.foldl (fun s e => s.putLine e.1 e.2) { s with wbuf := [] }

/-! ## What leaves the part, events, interrupts -/

/-- Adds to the output log. -/
def State.emit (s : State) (o : Output) : State := { s with out := s.out ++ [o] }

/-- An error completion to a requester (01 R24; 15 R344). -/
def State.errorTo (s : State) (req : Requester) : State :=
  match req with
  | .host => s.emit .advisoryError
  | .mctp => s.emit (.mgmt false [])
  | .fabric => s.emit .commandError

/-- Raises an MSI-X vector of PF0; a masked one sets its pending bit (15 R348, 17 R397). -/
def State.raise (s : State) (v : Nat) : State :=
  if bit s.host.masked v then { s with host := { s.host with msixPend := setBit s.host.msixPend v true } }
  else s.emit (.msix v)

/-- The CORE rail at a set point, in thirds of a microvolt: 0.55 V at 500 MHz, 0.62 V at 1,100, 0.68 V at 1,500, 0.75 V at 2,000, 0.80 V at 2,200, linear between (14 R329); the load-line is in the calibration set. -/
def coreVolts (mhz : Nat) : Nat :=
  if mhz ≤ 500 then 1650000
  else if mhz ≤ 1100 then 1650000 + 350 * (mhz - 500)
  else if mhz ≤ 1500 then 1860000 + 450 * (mhz - 1100)
  else if mhz ≤ 2000 then 2040000 + 420 * (mhz - 1500)
  else 2250000 + 750 * (mhz - 2000)

/-- A rail's nominal voltage; CORE's at the alignment set point of 1,000 MHz (14 R329, R330). -/
def railVolts (r : Fin 8) : Nat := ([coreVolts 1000, 2400000, 5400000, 3150000, 2100000, 2400000, 2700000, 3600000])[r.val]!

/-- A rail set to a voltage. -/
def State.setRail (s : State) (r : Fin 8) (v : Nat) : State :=
  if s.pow.rails[r] = v then s else { s with pow := { s.pow with rails := s.pow.rails.set r v } }.emit (.rail r v)

/-- The CORE rail follows a set point, if it is up (14 R329). -/
def State.coreRail (s : State) (mhz : Nat) : State := if s.pow.rails[(0 : Fin 8)] = 0 then s else s.setRail 0 (coreVolts mhz)

/-- Rails turned off in an order. -/
def State.railsOff (s : State) (l : List (Fin 8)) : State := l.foldl (fun s r => s.setRail r 0) s

/-- Event types that never merge (17 R393). -/
def unmerged : List Nat :=
  [0x101, 0x102, 0x302, 0x303, 0x305, 0x401, 0x402, 0x403, 0x404, 0x407, 0x409, 0x503, 0x602, 0x603, 0x701]

/-- Whether an occurrence repeats the newest stored record (17 R391). -/
def repeats (r : EventRecord) (type : Nat) (sev : Fin 8) (src : BitVec 16) (body : List Byte) : Bool :=
  !unmerged.contains type && r.type == BitVec.ofNat 16 type && r.sev == sev && r.src == src && r.body == body

/-- Place of a record among those of one tick (17 R390): the security block, ALARM records by trigger; power, thermal and clocks; the compute die by core, partition-wide records after core ones; fabric ports, then the die-to-die link; the rest (log 93). -/
def eventRank (type : Nat) (src : BitVec 16) (body : List Byte) : Nat :=
  if type = 0x603 then (byteAt body 0).toNat
  else if type / 256 = 6 then 16
  else if type / 256 = 4 then 1000
  else if type = 0x101 || type = 0x102 then 2064 + src.toNat / 256
  else if type = 0x104 || type / 256 = 2 then (if src.toNat % 256 < 64 then 2000 + src.toNat % 256 else 2064 + src.toNat / 256)
  else if type = 0x501 then 3000 + (byteAt body 0).toNat
  else if type = 0x503 then 3008
  else if type = 0x502 then 3009
  else 4000

/-- A stored record that comes after a new one of the same tick. -/
def EventRecord.after (new r : EventRecord) : Bool :=
  r.tFirst == new.tFirst && eventRank new.type.toNat new.src new.body < eventRank r.type.toNat r.src r.body

/-- The newest records that come after a new one, and those before them. -/
def EventStore.tail (e : EventStore) (new : EventRecord) : List EventRecord := (e.store.reverse.takeWhile new.after).reverse
def EventStore.front (e : EventStore) (new : EventRecord) : List EventRecord := (e.store.reverse.dropWhile new.after).reverse

/-- A record stored in its place: it and those after it take their SEQ in order (17 R390). -/
def EventStore.insert (e : EventStore) (new : EventRecord) : EventStore :=
  let tail := e.tail new
  { e with
    store := e.front new ++ List.zipWith (fun r q => { r with seq := q }) (new :: tail) (tail.map (fun r => r.seq) ++ [e.nextSeq])
    nextSeq := e.nextSeq + 1 }

/-- A record that is no repeat: in a free slot, or over the oldest record of at most its severity, or dropped (17 R392). -/
def EventStore.place (e : EventStore) (new : EventRecord) : EventStore :=
  if e.store.length < 1024 then e.insert new
  else
    match e.store.find? (fun r => r.sev ≤ new.sev) with
    | some old => { e with store := e.store.erase old }.insert new
    | none => { e with lost := e.lost.set new.sev (satAdd e.lost[new.sev] 1) }

/-- The event store after one occurrence (17 R390-R392). -/
def EventStore.add (e : EventStore) (tb fabOfs : BitVec 64) (type : Nat) (sev : Fin 8) (src : BitVec 16) (body : List Byte) :
    EventStore :=
  let new : EventRecord :=
    { seq := e.nextSeq, type := BitVec.ofNat 16 type, sev := sev, src := src, rep := 0, tFirst := tb, tLast := tb,
      fabOfs := fabOfs, body := body }
  match (e.front new).getLast? with
  | some r =>
    if repeats r type sev src body then
      { e with store := (e.front new).dropLast ++ { r with rep := satAdd r.rep 1, tLast := tb } :: e.tail new }
    else e.place new
  | none => e.place new

/-- SRC of a record: partition and core, 0xFF for none (17 R388). -/
def srcOf (p : Option PartId) (c : Option CoreId) : BitVec 16 :=
  BitVec.ofNat 16 ((match p with | some p => p.val | none => 0xFF) * 256 + (match c with | some c => c.val | none => 0xFF))

/-- One event occurrence: record, repeat or drop; durable 10 us later (17 R387, R390, R397). part: the vector R74 raises then. -/
def State.event (s : State) (type : Nat) (sev : Fin 8) (p : Option PartId) (c : Option CoreId) (body : List Byte)
    (vector : Option PartId := none) : State :=
  { s with
    ev := { s.ev.add s.clk.tb (if s.fab.cfg.role = 0 then 0 else s.fab.tbOfs) type sev (srcOf p c) body with
      undurable := s.ev.undurable ++ [{ detected := s.clk.tb.toNat, sev := sev, part := vector }] } }

/-! ## Record and replay (12 R300-R305) -/

/-- Whether the record unit watches a partition in record mode. -/
def State.recording (s : State) (p : PartId) : Bool :=
  s.rr.mode == 1 && s.rr.part == p && !s.rr.stopped && (s.part p).pstate == .running

/-- Whether a partition runs in replay mode. -/
def State.replaying (s : State) (p : PartId) : Bool := s.rr.mode == 2 && s.rr.part == p

/-- The recording became incomplete (12 R303). cause: 0 staging full, 1 region full. -/
def State.rrIncomplete (s : State) (cause : Nat) : State :=
  { s with rr := { s.rr with incomplete := true, lost := satAdd s.rr.lost 1 } }.event 0x304 3 (some s.rr.part) none
    [BitVec.ofNat 8 s.rr.part.val, BitVec.ofNat 8 cause]

/-- Bytes staged and not yet written. -/
def RecordUnit.stagedBytes (r : RecordUnit) : Nat := (r.staged.map List.length).sum

/-- One record of 12 R301, staged in record mode: position = issue count of the first bundle that issues after it. -/
def State.rrNote (s : State) (p : PartId) (type : Nat) (core : Nat) (payload : List Byte) (at_ : Option Nat := none) : State :=
  if s.recording p then
    let pos := at_.getD (s.part p).icount.toNat
    let seq := if s.rr.seqPos = pos then s.rr.seqNo else 0
    let pad := (16 - payload.length % 16) % 16
    let bytes := leBytes 1 type ++ leBytes 1 core ++ leBytes 2 payload.length ++ leBytes 4 seq ++ leBytes 8 pos ++ payload
      ++ List.replicate pad 0
    if s.rr.stagedBytes + bytes.length ≤ 4194304 then
      { s with rr := { s.rr with staged := s.rr.staged ++ [bytes], seqPos := pos, seqNo := seq + 1 } }
    else s.rrIncomplete 0
  else s

/-- A WRITE record (12 R301): a line written into the partition by no schedule. source: 1 handler, 2 session, 3 owner-table move, 4 host. -/
def State.rrWrite (s : State) (p : PartId) (addr source core : Nat) (l : Line) : State :=
  s.rrNote p 2 core (leBytes 8 addr ++ leBytes 8 (source + 256 * core) ++ lineBytes l)

/-! ## Messages under way (11 R258, R262, R271) -/

/-- KIND of a message (11 R258). -/
def Msg.kind (m : Msg) : Nat := fld m.hdr 63 61
/-- NR: no reply asked. -/
def Msg.nr (m : Msg) : Bool := bit m.hdr 60
/-- Latency class. -/
def Msg.cls (m : Msg) : Fin 4 := Fin.ofNat 4 (fld m.hdr 59 58)
/-- Destination module. -/
def Msg.dmod (m : Msg) : Nat := fld m.hdr 57 46
/-- Destination endpoint. -/
def Msg.dep (m : Msg) : Nat := fld m.hdr 45 39
/-- Source module. -/
def Msg.smod (m : Msg) : Nat := fld m.hdr 38 27
/-- Source endpoint. -/
def Msg.sep (m : Msg) : Nat := fld m.hdr 26 20
/-- HND of a request, STAT of an answer. -/
def Msg.hnd (m : Msg) : Nat := fld m.hdr 19 14
/-- ARG. -/
def Msg.arg (m : Msg) : Nat := fld m.hdr 13 0

/-- The core that an endpoint number names. -/
def epCore (e : Nat) : Option CoreId := if h : e < 64 then some ⟨e, h⟩ else none

/-- A header from its fields. -/
def mkHdr (kind : Nat) (nr : Bool) (cls dmod dep smod sep hnd arg : Nat) : BitVec 64 :=
  BitVec.ofNat 64 (kind * 2 ^ 61 + nr.toNat * 2 ^ 60 + cls * 2 ^ 58 + dmod * 2 ^ 46 + dep * 2 ^ 39 + smod * 2 ^ 27 + sep * 2 ^ 20
    + hnd * 2 ^ 14 + arg)

/-- The reply (kind 2) or NAK (kind 3) to a request (11 R270, R277). -/
def Msg.answer (m : Msg) (kind stat : Nat) (payload : Line) : Msg :=
  { hdr := mkHdr kind false m.cls.val m.smod m.sep m.dmod m.dep stat m.arg, payload := payload, gen := m.gen }

/-- A NAK of a request; stat as 11 R277. -/
def Msg.nak (m : Msg) (stat : Nat) : Msg := m.answer 3 stat 0

/-- Puts a message on its way: the message network of the die, or, for another module's endpoint, the manager die's service list. -/
def State.sendMsg (s : State) (m : Msg) : State := { s with net := s.net ++ [m] }

/-- Whether an endpoint is a core of this module. -/
def State.ownCore (s : State) (dmod dep : Nat) : Option CoreId :=
  if dmod = s.fab.cfg.modid.toNat then epCore dep else none

/-- A request entry reserved at its destination is released (11 R262). -/
def State.releaseReq (s : State) (m : Msg) : State :=
  match s.ownCore m.dmod m.dep with
  | some c => s.modMu c (fun u => { u with rqHeld := u.rqHeld.set m.cls (u.rqHeld[m.cls] - 1) })
  | none => { s with
      mgrFromDie := s.mgrFromDie.set m.cls (s.mgrFromDie[m.cls] - 1)
      fab := if m.dmod = s.fab.cfg.modid.toNat then s.fab else { s.fab with reqUsed := s.fab.reqUsed.erase (m.dmod * 4 + m.cls.val) } }

/-! ### Towards other modules (15 R359, R361) -/

/-- All fabric ports. -/
def allPorts : List PortId := [0, 1, 2, 3, 4, 5, 6, 7]

/-- The port towards a module: ROUTE in direct mode, else a port in use, one that is up first (switches route on). -/
def State.toward (s : State) (m : Nat) : Option PortId :=
  let f := s.fab.cfg
  if f.role = 0 then none
  else if f.flow = 0 then
    let r := fld f.route (8 * m + 7) (8 * m)
    if m < 16 then allPorts.find? (fun n => n.val = r && bit f.ports n.val) else none
  else
    let used := allPorts.filter (fun n => bit f.ports n.val)
    match used.find? (fun n => s.fab.ports[n].up) with
    | some n => some n
    | none => used.head?

/-- A fabric port changed. -/
def State.modPort (s : State) (n : PortId) (f : Port → Port) : State :=
  { s with fab := { s.fab with ports := s.fab.ports.set n (f s.fab.ports[n]) } }

/-- Whether a message comes from this die. -/
def State.fromDie (s : State) (m : Msg) : Bool := m.smod == s.fab.cfg.modid.toNat

/-- A request credit is owed on a port. -/
def State.oweCredit (s : State) (n : PortId) (c : Fin 4) : State :=
  s.modPort n (fun q => { q with reqOwed := q.reqOwed.set c (q.reqOwed[c] + 1) })

/-- A request credit of another module is given back once its request has left its final queue or is turned away (15 R359). -/
def State.returnCredit (s : State) (m : Msg) : State :=
  if s.fromDie m || s.fab.cfg.flow ≠ 0 then s
  else match s.toward m.smod with
    | some n => s.oweCredit n m.cls
    | none => s

/-- An inbound request entry of the manager die is free again. -/
def State.freeEntry (s : State) (m : Msg) : State :=
  if s.fromDie m then { s with mgrFromDie := s.mgrFromDie.set m.cls (s.mgrFromDie[m.cls] - 1) }
  else ({ s with mgrFromFab := s.mgrFromFab.set m.cls (s.mgrFromFab[m.cls] - 1) }).returnCredit m

/-- A request entry reserved for a message is free: at its receiver, or, of another module's request, at this manager die. -/
def State.release1 (s : State) (m : Msg) : State := if s.fromDie m then s.releaseReq m else s.freeEntry m

/-- The sender of an NR request is told nothing: its reply entry is free (11 R262). -/
def State.freeReply (s : State) (m : Msg) : State :=
  if s.fromDie m then
    match epCore m.sep with
    | some c => if (s.core c).mu.gen = m.gen then s.modMu c (fun u => { u with rpHeld := u.rpHeld - 1 }) else s
    | none => s
  else s

/-! ### Fabric slots (15 R355, R356) -/

/-- The n bytes of a slot header from byte b: fabric fields are sent most significant byte first. -/
def slotField (h : BitVec 128) (b n : Nat) : Nat :=
  (List.range n).foldl (fun v i => 256 * v + fld h (8 * (b + i) + 7) (8 * (b + i))) 0

/-- A field placed in a slot header. -/
def slotPut (b n v : Nat) : Nat := ((List.range n).map (fun i => v / 256 ^ (n - 1 - i) % 256 * 2 ^ (8 * (b + i)))).sum

/-- A slot from its fields. -/
def mkSlot (stype ch cls ver addr : Nat) (payload : Line) : FabSlot :=
  { hdr := BitVec.ofNat 128 (16 * stype + 4 * ch + cls + slotPut 4 4 ver + slotPut 8 8 addr), payload := payload }

/-- STYPE. -/
def slotType (x : FabSlot) : Nat := fld x.hdr 7 4
/-- CH. -/
def slotCh (x : FabSlot) : Nat := fld x.hdr 3 2
/-- CLS. -/
def slotCls (x : FabSlot) : Nat := fld x.hdr 1 0
/-- E2E. -/
def slotE2e (x : FabSlot) : Nat := slotField x.hdr 2 2
/-- VER. -/
def slotVer (x : FabSlot) : Nat := slotField x.hdr 4 4
/-- ADDR. -/
def slotAddr (x : FabSlot) : Nat := slotField x.hdr 8 8

/-- A slot that carries a message (11 R258). -/
def msgSlot (m : Msg) : FabSlot := mkSlot 1 (if m.kind = 1 then 0 else 1) m.cls.val 0 m.hdr.toNat m.payload

/-- The message that a slot carries. -/
def slotMsg (x : FabSlot) : Msg := { hdr := BitVec.ofNat 64 (slotAddr x), payload := x.payload, gen := 0 }

/-- A request slot. -/
def isRequest (x : FabSlot) : Bool := slotType x = 1 && (slotMsg x).kind = 1

/-- Key of an E2E stream: source module, destination module, channel, class (15 R356). -/
def e2eKey (src dst ch cls : Nat) : Nat := ((src * 4096 + dst) * 4 + ch) * 4 + cls

/-- A slot with another number in its stream. -/
def numbered (x : FabSlot) (v : BitVec 16) : FabSlot :=
  { x with hdr := (x.hdr &&& ~~~(BitVec.ofNat 128 0xFFFF0000)) ||| BitVec.ofNat 128 (slotPut 2 2 v.toNat) }

/-- Slots without some messages among them, their streams without gaps: lost holds the streams of those taken out. -/
def closeGaps (key : FabSlot → Nat) (gone : FabSlot → Bool) : List Nat → List FabSlot → List FabSlot
  | _, [] => []
  | lost, x :: xs =>
    if gone x then closeGaps key gone (key x :: lost) xs
    else (if lost.contains (key x) then numbered x (BitVec.ofNat 16 (slotE2e x) - BitVec.ofNat 16 (lost.count (key x))) else x) ::
      closeGaps key gone lost xs

/-- The stream of a message slot of this module; 0, which no such stream has, for any other slot. -/
def State.messageKey (s : State) (x : FabSlot) : Nat :=
  if slotType x = 1 && s.fromDie (slotMsg x) then e2eKey (slotMsg x).smod (slotMsg x).dmod (slotCh x) (slotCls x) else 0

/-- A request of a core that waits at a port, not yet on the link, is dropped: its entry at the manager die and its credit are free, and no answer to it is awaited (11 R271). -/
def State.unsend (s : State) (n : PortId) (m : Msg) : State :=
  let s := s.modPort n (fun q => { q with
    unacked := q.unacked.filter (fun u => !(u.hdr == m.hdr && u.payload == m.payload)), through := q.through.erase (m.dmod * 4 + m.cls.val, none) })
  { s with fab := { s.fab with asked := s.fab.asked.filter (fun a => !(a.req.hdr == m.hdr && a.req.payload == m.payload)) } }.releaseReq m

/-- The requests of a core that wait at the ports are dropped (11 R271). -/
def State.closePorts (s : State) (c : CoreId) : State :=
  let mine : FabSlot → Bool := fun x => isRequest x && s.fromDie (slotMsg x) && (slotMsg x).sep = c.val
  allPorts.foldl (fun s n =>
    let gone := s.fab.ports[n].tx.filter mine
    if gone.isEmpty then s
    else
      let key := s.messageKey
      let s := s.modPort n (fun q => { q with tx := closeGaps key mine [] q.tx })
      let s := { s with fab := { s.fab with e2e := s.fab.e2e.map (fun e => (e.1, e.2 - BitVec.ofNat 16 ((gone.map key).count e.1))) } }
      gone.foldl (fun s x => s.unsend n (slotMsg x)) s) s

/-- Requests that turn out to have no receiver: their entries are free, NAK CLOSED goes back (11 R271). -/
def State.refuseAll (s : State) (l : List Msg) : State :=
  l.foldl (fun s m => (s.release1 m).sendMsg (m.nak 1)) s

/-- The message network at the closing of a core (11 R271): requests that it sent are dropped, requests to it are answered NAK CLOSED. -/
def State.closeNet (s : State) (c : CoreId) : State :=
  let mine : Msg → Bool := fun m => m.kind = 1 && s.fromDie m && m.sep = c.val
  let toMe : Msg → Bool := fun m => m.kind = 1 && m.dmod = s.fab.cfg.modid.toNat && m.dep = c.val && !mine m
  let out := s.net.filter mine
  let in_ := s.net.filter toMe
  let s := { s with net := s.net.filter (fun m => !(mine m || toMe m)) }
  let s := (out.foldl (fun s m => s.releaseReq m) s).refuseAll in_
  s.modMu c (fun u => { u with closedTx := satAdd u.closedTx in_.length })

/-- Requests of a core that wait at the manager die, for a service to accept them, for a port, or for the weir (11 R271). -/
def State.heldOf (s : State) (c : CoreId) : List Msg :=
  let mine : Msg → Bool := fun m => m.kind = 1 && s.fromDie m && m.sep = c.val
  ((s.services.filter (fun v => mine v.req && !v.accepted)).map (fun v : Service => v.req)) ++
    s.asz.waiting.filterMap (fun (e : Nat × Transfer) => match e.2 with | .message m => if mine m then some m else none | _ => none)

/-- They are dropped, and their entries free. -/
def State.dropHeld (s : State) (c : CoreId) : State :=
  let mine : Msg → Bool := fun m => m.kind = 1 && s.fromDie m && m.sep = c.val
  let held := s.heldOf c
  let s := { s with
    services := s.services.filter (fun v => !(mine v.req && !v.accepted))
    asz := { s.asz with waiting := s.asz.waiting.filter (fun (e : Nat × Transfer) => match e.2 with | .message m => !mine m | _ => true) } }
  held.foldl (fun s m => s.releaseReq m) s

/-- A core becomes closed (11 R271): queued requests leave with NAK CLOSED, the entries of other modules' requests go back to them, its own outstanding sends are dropped, replies to it are discarded from now on. A running handler stops after its present operation. -/
def State.closeCore (s : State) (c : CoreId) : State :=
  let u := (s.core c).mu
  let s := s.dropHeld c
  let s := (u.txHeld.filterMap (fun e => u.staging[e])).foldl (fun s m => s.releaseReq m) s
  let s := (s.closeNet c).closePorts c
  let running := match u.handler with | some h => [h] | none => []
  let queued := u.rq.filter (fun m => !m.nr) ++ (running.filter (fun h => !(h.req.nr || h.replied))).map (fun h : Handler => h.req)
  let s := (u.rq ++ running.map (fun h : Handler => h.req)).foldl (fun s m => s.returnCredit m) s
  let s := { s with net := s.net ++ queued.map (fun m : Msg => m.nak 1) }
  s.modMu c (fun u => { u with
    rq := [], rqHeld := .replicate 4 0, rp := [], rpHeld := 0, handler := none, txHeld := [], gen := u.gen + 1,
    closedTx := satAdd u.closedTx queued.length })

/-! ## Transactions that a halt, reset or stop disarms (13 R323) -/

/-- Sets the outcome of the armed transaction of a partition: record of severity 2 and the partition's vector. A commit (1) leaves it committed until every core has its new state. -/
def State.txnOutcome (s : State) (p : PartId) (result : Nat) (icount : Nat) : State :=
  match (s.part p).armed with
  | none => s
  | some a =>
    let s := s.modPart p (fun q => { q with
      armed := none, committed := if result = 1 then some a else q.committed,
      txnResult := BitVec.ofNat 3 result, txnId := a.id, txnIcount := BitVec.ofNat 48 icount })
    let s := if result = 1 then s
      else (s.coresOf p).foldl (fun s c => s.modCfg c (fun g => { g with armedCode := none })) s
    (s.event 0x303 2 (some p) none (leBytes 1 p.val ++ leBytes 1 result ++ leBytes 1 a.id.val ++ leBytes 5 0 ++ leBytes 8 icount)).raise
      p.val

/-! ## Halts (03 R71-R76, 02 R39) -/

/-- A halt record as its five registers (03 R75). -/
def HaltRecord.bytes (h : HaltRecord) : List Byte :=
  leBytes 8 (h.valid.toNat * 0x8000 + h.first.toNat * 0x4000 + h.inflight.toNat * 0x2000 + h.slot.toNat * 0x100 + h.reason.toNat)
    ++ leBytes 8 h.addr.toNat ++ leBytes 8 h.icount.toNat ++ leBytes 8 h.detail.toNat ++ leBytes 8 h.tb.toNat

/-- The first issue count that no core issues after a halt (02 R39): at most 8 further bundles, fewer when a hold is decided or in progress. The bundle that issues beside one refused at issue is not a further one; any bundle that issues after a halt in flight is (03 R71, DEDUCED, log 15). -/
def Part.haltStop (q : Part) (atIssue : Bool) : Nat :=
  if q.held then q.icount.toNat
  else q.holds.foldl (fun n h => min n h.before) (if atIssue then q.count + 9 else q.icount.toNat + 8)

/-- The code of a cause in a HOLD record (12 R301). -/
def HoldCause.code : HoldCause → Nat
  | .halt => 1
  | .late => 2
  | .retry => 3
  | .gather => 4
  | .forced => 5
  | .pend => 6

/-- A HOLD record for the held cycles counted against one cause. -/
def State.noteHold (s : State) (p : PartId) (h : Hold) : State :=
  if h.run = 0 then s else s.rrNote p 5 0xFF (leBytes 8 h.last.code ++ leBytes 8 h.run) (some h.before)

/-- A halted partition whose cores have all halted issues no further bundle after the one at issue, which takes no effect (02 R39, 03 R71). -/
def State.allHalted (s : State) (p : PartId) : State :=
  if (s.coresOf p).all (fun c => (s.core c).ctl.halted) then
    s.modPart p (fun q => { q with
      haltLimit := q.haltLimit.map (fun n => min n (if q.cycDone || q.held then q.icount.toNat else q.icount.toNat + 1)) })
  else s

/-- The HALT record and its HALT_CONT records, written once the halt hold begins so that they carry every halted core's record (03 R74, 17 R393), and again for a core that halts in it. -/
def State.haltEvents (s : State) (p : PartId) : State :=
  let hs := (s.coresOf p).filter (fun c => (s.core c).ctl.halted)
  let mask := hs.foldl (fun n c => n + 2 ^ c.val) 0
  let recs := fun (cs : List CoreId) => cs.flatMap (fun c => (s.core c).halt.bytes)
  let s' := s.event 0x101 5 (some p) hs.head?
    (leBytes 1 p.val ++ leBytes 1 hs.length ++ leBytes 6 0 ++ leBytes 8 mask ++ recs (hs.take 5)) (some p)
  let conts := (List.range 12).filter (fun i => 5 * (i + 1) < hs.length)
  (conts.foldl (fun s i => s.event 0x102 5 (some p) hs.head?
    (leBytes 1 p.val ++ leBytes 1 (i + 1) ++ leBytes 6 0 ++ recs ((hs.drop (5 * (i + 1))).take 5)) (some p)) s').modPart p
    (fun q => { q with haltTold := true })

/-- ICOUNT, CYC and TOTAL of the present cycle, as an END record gives them (12 R301): CYC is ICOUNT plus TOTAL (12 R299). -/
def Part.endPayload (q : Part) : List Byte :=
  leBytes 8 q.count ++ leBytes 8 q.now ++ leBytes 8 (if q.cycDone && !q.issued then q.total.toNat - 1 else q.total.toNat)

/-- The position of what a halt in the present cycle records: the first bundle that issues after it (12 R301). -/
def Part.haltPosition (q : Part) : Nat := if q.held then q.icount.toNat else q.count + 1

/-- The halt record of a halt in the present cycle of a partition (03 R75). -/
def State.haltRecord (s : State) (q : Part) (h : HaltFound) : HaltRecord :=
  { valid := true, first := q.pstate == .running || q.now == q.haltFirst, inflight := h.inflight, slot := BitVec.ofNat 3 h.slot,
    reason := BitVec.ofNat 8 h.reason, addr := h.addr, icount := BitVec.ofNat 64 q.count, detail := BitVec.ofNat 64 h.detail,
    tb := s.coreTb h.core }

/-- A core halts in the present cycle: its record is filled, it issues nothing from the next cycle, its partition begins a halt hold, the core closes (03 R71, R75; 02 R39; 11 R271); what the recording keeps of it is its HALT record, then END (12 R301). -/
def State.haltNow (s : State) (p : PartId) (h : HaltFound) (atIssue : Bool) : State :=
  if (s.core h.core).ctl.halted then s else
  let q := s.part p
  let first := q.pstate == .running
  let record := s.haltRecord q h
  let s := if h.handler then s.rrNote p 6 h.core.val record.bytes (some q.haltPosition) else s
  let s := if first then
      (q.holds.foldl (fun s h => s.noteHold p h) s).rrNote p 7 0xFF q.endPayload (some q.haltPosition) else s
  let s := s.modPart p (fun q => { q with
    pstate := .halted, tbEnd := if first then s.clk.tb else q.tbEnd, haltFirst := if first then q.now else q.haltFirst, holds := [],
    haltLimit := match q.haltLimit with | some n => some (min n (q.haltStop atIssue)) | none => some (q.haltStop atIssue) })
  let s := s.modCore h.core (fun k => { k with
    ctl := { k.ctl with halted := true, waiting := false, deadline := none }, halt := record })
  let s := ((s.closeCore h.core).txnOutcome p 3 0).allHalted p
  if q.haltTold then s.haltEvents p else s

/-- Core c halts (03 R71). A core that has halted halts no more. A halt in flight that comes when the bundles of the cycle have issued takes effect in the next cycle, whose bundle takes no effect (DESIGN CHOICE, log 82), but for a block refused at its own issue (08 R203). -/
def State.haltCore (s : State) (c : CoreId) (inflight : Bool) (slot : Nat) (reason : Nat) (addr : BitVec 48) (detail : Nat)
    (atIssue : Bool := false) (handler : Bool := false) : State :=
  match s.partOf c with
  | none => s
  | some p =>
    let h : HaltFound := { core := c, inflight := inflight, slot := slot, reason := reason, addr := addr, detail := detail, handler := handler }
    if (s.part p).cycDone && !atIssue then
      if (s.core c).ctl.halted then s else s.modPart p (fun q => { q with halting := q.halting ++ [h] })
    else s.haltNow p h atIssue

/-- The halts found after the bundles of the cycle before take effect. -/
def State.haltsFound (s : State) (p : PartId) : State :=
  let l := (s.part p).halting
  let s := s.modPart p (fun q => { q with halting := [] })
  if (s.part p).live then l.foldl (fun s h => s.haltNow p h false) s else s

/-! ## The end of a task (03 R69, 13 R319) -/

/-- Everything a core had in pipelines, streams and queues is abandoned (13 R319, 11 R271). -/
def Core.abandon (k : Core) : Core :=
  { k with
    ctl := { k.ctl with waiting := false, deadline := none }
    cfg := { k.cfg with oldCode := none }
    vec := { k.vec with pend := [] }
    mx := Vector.mk (k.mx.toList.map (fun e => { e with ops := [], drains := [], mrql := [], present := none })).toArray
      (by simp)
    str := { k.str with chains := .replicate 16 none, latches := .replicate 16 none, budgets := [], path := 0, blocks := [], waiting := [], board := [] } }

/-- HBM requests of a core's blocks leave the queues (13 R319). -/
def HbmReq.ofCore (c : CoreId) : HbmReq → Bool
  | .read k _ _ _ => k == c
  | .write k _ _ _ _ => k == c
  | _ => false

/-- Jobs abandoned, with what the weir has yet to admit of them. -/
def State.dropSoft (s : State) (f : SoftEnd → Bool) : State :=
  let gone := (s.soft.filter (fun j => f j.fin)).map (fun j => j.id)
  { s with
    soft := s.soft.filter (fun j => !f j.fin), softDone := s.softDone.filter (fun j => !f j.fin)
    asz := { s.asz with waiting := s.asz.waiting.filter (fun (e : Nat × Transfer) => match e.2 with
      | .lines id => !gone.contains id
      | .fetch p i => !f (.placement p i (s.part p).slots[i].k)
      | _ => true) } }

/-- The placement of an input into a partition's slot. -/
def SoftEnd.places (p : PartId) : SoftEnd → Bool
  | .placement q _ _ => q == p
  | _ => false

/-- Pipelines, streams, handlers, queues and placements of a partition are abandoned, its cores closed (13 R319, 11 R271, 15 R351). -/
def State.abandonPart (s : State) (p : PartId) : State :=
  let s := s.dropSoft (SoftEnd.places p)
  let s := (s.coresOf p).foldl (fun s c => (s.closeCore c).modCore c Core.abandon) s
  let mine : HbmReq → Bool := fun r => (s.coresOf p).any (fun c => HbmReq.ofCore c r)
  let s := { s with
    transit := s.transit.filter (fun t => !mine t.req && s.partOf t.core != some p)
    pcs := s.pcs.map (fun (e : Nat × PseudoChannel) => (e.1, { e.2 with
      queue := e.2.queue.filter (fun r => !mine r), reads := e.2.reads.filter (fun (r : HbmReq × Line) => !mine r.1) })) }
  s.modPart p (fun q => { q with
    cycDone := false, issued := false, holds := [], haltLimit := none, haltTold := false, release := none, refreshed := false, signals := [], resv := [],
    slots := .replicate 32 .none, roots := .replicate 16 .none, taskEnd := false, endErrs := [], halting := [] })

/-- The stop of a partition (13 R319): a running one ends its task, and everything in flight is abandoned; a halted one changes only its PSTATE, once its halt's records are written. -/
def State.stopPart (s : State) (p : PartId) : State :=
  let q := s.part p
  if !q.live then s
  else if q.pstate == .halted then
    (if q.haltTold then s else s.haltEvents p).modPart p (fun q => { q with pstate := .stopped, halting := [] })
  else
    let s := (q.holds.foldl (fun s h => s.noteHold p h) s).rrNote p 7 0xFF (leBytes 8 q.icount.toNat ++ leBytes 8 q.cyc.toNat ++ leBytes 8 q.total.toNat)
    ((s.abandonPart p).txnOutcome p 3 0).modPart p (fun q => { q with pstate := .stopped, tbEnd := s.clk.tb })

end Sys2Proof.Machine
end

