-- ==== Sys2Proof/Machine/Flags.lean ====
section
/-! DEFINITION. Flags.lean: exact floating-point arithmetic with one rounding to nearest, ties to even, and the exception conditions of each result (06 R142, R147, R148, R154-R158; 07 R173-R175). -/

namespace Sys2Proof.Machine

/-! ## Exception conditions, as the bits of CFG_VFLAGS (07 R175) -/

/-- Invalid operation. -/
def fIV : Nat := 1
/-- Division by zero. -/
def fDZ : Nat := 2
/-- Overflow, which brings inexact. -/
def fOF : Nat := 20
/-- Underflow, which brings inexact. -/
def fUF : Nat := 24
/-- Inexact. -/
def fNX : Nat := 16

/-! ## Values -/

/-- A value: NaN, an infinity, or (-1)^neg * m * 2^e exactly. -/
inductive Fp where
  | nan
  | inf (neg : Bool)
  | fin (neg : Bool) (m : Nat) (e : Int)
  deriving DecidableEq, Repr

/-- A binary floating format: exponent bits, mantissa bits (06 R142). Its all-ones exponent holds infinity and NaN. -/
structure Fmt where
  eb : Nat
  mb : Nat
  deriving DecidableEq, Repr

/-- binary32. -/
def f32 : Fmt := ⟨8, 23⟩
/-- binary16. -/
def f16 : Fmt := ⟨5, 10⟩
/-- BF16: bits 31:16 of a binary32 value. -/
def bf16 : Fmt := ⟨8, 7⟩

/-- The format's bias. -/
def Fmt.bias (f : Fmt) : Nat := 2 ^ (f.eb - 1) - 1
/-- Exponent of the unit in the last place of subnormals. -/
def Fmt.emin (f : Fmt) : Int := 1 - (f.bias : Int) - f.mb
/-- Magnitude bits of infinity. -/
def Fmt.infBits (f : Fmt) : Nat := (2 ^ f.eb - 1) * 2 ^ f.mb
/-- The sign bit's weight. -/
def Fmt.signBit (f : Fmt) : Nat := 2 ^ (f.eb + f.mb)
/-- The canonical NaN (06 R148). -/
def Fmt.nan (f : Fmt) : Nat := f.infBits + 2 ^ (f.mb - 1)

/-- The value of a finite magnitude: exponent field and mantissa field (06 R143). -/
def magVal (neg : Bool) (mb : Nat) (bias : Nat) (mag : Nat) : Fp :=
  let e := mag / 2 ^ mb
  let m := mag % 2 ^ mb
  if e = 0 then .fin neg m (1 - (bias : Int) - mb) else .fin neg (2 ^ mb + m) ((e : Int) - bias - mb)

/-- The value of a code of a format with infinities (06 R143). -/
def Fmt.dec (f : Fmt) (x : Nat) : Fp :=
  let neg := x / f.signBit % 2 = 1
  let mag := x % f.signBit
  if mag = f.infBits then .inf neg
  else if f.infBits < mag then .nan
  else magVal neg f.mb f.bias mag

/-- m * 2^e divided by 2^q, rounded to the nearest integer with ties to even, and whether it was inexact. -/
def rneShift (m : Nat) (e q : Int) : Nat × Bool :=
  if q ≤ e then (m <<< (e - q).toNat, false)
  else
    let sh := (q - e).toNat
    let r := m >>> sh
    let rem := m % 2 ^ sh
    let half := 2 ^ (sh - 1)
    (if half < rem || (rem == half && r % 2 == 1) then r + 1 else r, rem != 0)

/-- Magnitude bits of m * 2^e (m > 0) rounded into a format of mb mantissa bits and subnormal unit 2^emin, with no upper limit; whether inexact; whether tiny before rounding. -/
def roundMag (mb : Nat) (emin : Int) (m : Nat) (e : Int) : Nat × Bool × Bool :=
  let k := (m.log2 : Int) + e
  let q := max (k - mb) emin
  let (r, nx) := rneShift m e q
  ((q - emin).toNat * 2 ^ mb + r, nx, decide (k < emin + mb))

/-- A value rounded into a format: its code and its exception conditions (07 R173, R175). -/
def Fmt.enc (f : Fmt) : Fp → Nat × Nat
  | .nan => (f.nan, 0)
  | .inf n => (n.toNat * f.signBit + f.infBits, 0)
  | .fin n 0 _ => (n.toNat * f.signBit, 0)
  | .fin n m e =>
    let (mag, nx, tiny) := roundMag f.mb f.emin m e
    if f.infBits ≤ mag then (n.toNat * f.signBit + f.infBits, fOF)
    else (n.toNat * f.signBit + mag, if nx then (if tiny then fUF else fNX) else 0)

/-! ## Exact operations -/

/-- Sign flipped. -/
def Fp.neg : Fp → Fp
  | .nan => .nan
  | .inf n => .inf !n
  | .fin n m e => .fin (!n) m e

/-- Exact sum of two finite values; an exact zero is -0 only when both are negative. -/
def finAdd (n1 : Bool) (m1 : Nat) (e1 : Int) (n2 : Bool) (m2 : Nat) (e2 : Int) : Fp :=
  let e := min e1 e2
  let a := m1 <<< (e1 - e).toNat
  let b := m2 <<< (e2 - e).toNat
  if n1 = n2 then .fin n1 (a + b) e
  else if a = b then .fin false 0 e
  else if b < a then .fin n1 (a - b) e
  else .fin n2 (b - a) e

/-- Exact sum and its exception conditions: infinity minus infinity is invalid (07 R174). -/
def Fp.add : Fp → Fp → Fp × Nat
  | .nan, _ => (.nan, 0)
  | _, .nan => (.nan, 0)
  | .inf a, .inf b => if a = b then (.inf a, 0) else (.nan, fIV)
  | .inf a, _ => (.inf a, 0)
  | _, .inf b => (.inf b, 0)
  | .fin n1 m1 e1, .fin n2 m2 e2 => (finAdd n1 m1 e1 n2 m2 e2, 0)

/-- Exact product; 0 times infinity is invalid (07 R173, R174). -/
def Fp.mul : Fp → Fp → Fp × Nat
  | .nan, _ => (.nan, 0)
  | _, .nan => (.nan, 0)
  | .inf a, .inf b => (.inf (a != b), 0)
  | .inf a, .fin n m _ => if m = 0 then (.nan, fIV) else (.inf (a != n), 0)
  | .fin n m _, .inf b => if m = 0 then (.nan, fIV) else (.inf (n != b), 0)
  | .fin n1 m1 e1, .fin n2 m2 e2 => (.fin (n1 != n2) (m1 * m2) (e1 + e2), 0)

/-- Whether a value is NaN. -/
def Fp.isNan : Fp → Bool
  | .nan => true
  | _ => false

/-- Whether a value is zero. -/
def Fp.isZero : Fp → Bool
  | .fin _ 0 _ => true
  | _ => false

/-- Order of two values that are not NaN; -0 equals +0. -/
def Fp.lt : Fp → Fp → Bool
  | .nan, _ => false
  | _, .nan => false
  | .inf true, .inf b => !b
  | .inf false, _ => false
  | .inf true, .fin .. => true
  | .fin .., .inf b => !b
  | .fin n1 m1 e1, .fin n2 m2 e2 =>
    let e := min e1 e2
    let a : Int := m1 <<< (e1 - e).toNat
    let b : Int := m2 <<< (e2 - e).toNat
    (if n1 then -a else a) < (if n2 then -b else b)

/-- Equality of two values; a NaN equals nothing, -0 equals +0. -/
def Fp.eq (a b : Fp) : Bool := !a.isNan && !b.isNan && !a.lt b && !b.lt a

/-- Sign of a value; NaN has none. -/
def Fp.sign : Fp → Bool
  | .nan => false
  | .inf n => n
  | .fin n _ _ => n

/-! ## Operations on codes (07 R173) -/

/-- a + b in a format. -/
def Fmt.add (f : Fmt) (a b : Nat) : Nat × Nat :=
  let r := (f.dec a).add (f.dec b)
  let c := f.enc r.1
  (c.1, c.2 ||| r.2)

/-- a - b: the sum with b's sign flipped. -/
def Fmt.sub (f : Fmt) (a b : Nat) : Nat × Nat :=
  let r := (f.dec a).add (f.dec b).neg
  let c := f.enc r.1
  (c.1, c.2 ||| r.2)

/-- a * b. -/
def Fmt.mul (f : Fmt) (a b : Nat) : Nat × Nat :=
  let r := (f.dec a).mul (f.dec b)
  let c := f.enc r.1
  (c.1, c.2 ||| r.2)

/-- a * b + c with one rounding; 0 times infinity is invalid even with a NaN c (07 R174). -/
def Fmt.fma (f : Fmt) (a b c : Nat) : Nat × Nat :=
  let p := (f.dec a).mul (f.dec b)
  let r := p.1.add (f.dec c)
  let e := f.enc r.1
  (e.1, e.2 ||| p.2 ||| r.2)

/-- IEEE 754-2019 minimum (07 R173). -/
def Fmt.minimum (f : Fmt) (a b : Nat) : Nat × Nat :=
  let x := f.dec a
  let y := f.dec b
  if x.isNan || y.isNan then (f.nan, 0)
  else if x.lt y then (a, 0)
  else if y.lt x then (b, 0)
  else (if x.sign then a else b, 0)

/-- IEEE 754-2019 maximum (07 R173). -/
def Fmt.maximum (f : Fmt) (a b : Nat) : Nat × Nat :=
  let x := f.dec a
  let y := f.dec b
  if x.isNan || y.isNan then (f.nan, 0)
  else if x.lt y then (b, 0)
  else if y.lt x then (a, 0)
  else (if x.sign then b else a, 0)

/-! ## Conversions of the vector engine (06 R154, R157; 07 R177) -/

/-- A code converted between two formats, rounding once. -/
def cvt (src dst : Fmt) (x : Nat) : Nat × Nat := dst.enc (src.dec x)

/-- I32 to FP32. -/
def i32ToF32 (x : BitVec 32) : Nat × Nat := f32.enc (.fin (x.toInt < 0) x.toInt.natAbs 0)

/-- FP32 to I32, ties to even; out of range and NaN raise invalid. -/
def f32ToI32 (x : Nat) : Nat × Nat :=
  match f32.dec x with
  | .nan => (0, fIV)
  | .inf n => (if n then 0x80000000 else 0x7FFFFFFF, fIV)
  | .fin n m e =>
    let (r, nx) := rneShift m e 0
    if n then (if 0x80000000 < r then (0x80000000, fIV) else ((0x100000000 - r) % 0x100000000, if nx then fNX else 0))
    else if 0x7FFFFFFF < r then (0x7FFFFFFF, fIV) else (r, if nx then fNX else 0)

/-! ## Special functions (07 R180, R181) -/

/-- Integer square root by bits, from bit k down. -/
def isqrtFrom : Nat → Nat → Nat → Nat
  | 0, _, r => r
  | k + 1, n, r => let t := r + 2 ^ k; isqrtFrom k n (if t * t ≤ n then t else r)

/-- floor of the square root of a number below 2^256. -/
def isqrt (n : Nat) : Nat := isqrtFrom 128 n 0

/-- m * 2^e as a number times 2^(-128): an even exponent split for roots. -/
def sqrtParts (m : Nat) (e : Int) : Nat × Int :=
  if e % 2 = 0 then (isqrt (m <<< 128), e / 2 - 64) else (isqrt ((2 * m) <<< 128), (e - 1) / 2 - 64)

/-- SQRT, correctly rounded, ties to even; inexact as IEEE 754 gives. -/
def sqrtF32 (x : Nat) : Nat × Nat :=
  match f32.dec x with
  | .nan => (f32.nan, 0)
  | .inf n => if n then (f32.nan, fIV) else (x, 0)
  | .fin n m e =>
    if m = 0 then (x, 0)
    else if n then (f32.nan, fIV)
    else
      let (r, q) := sqrtParts m e
      let exact := r * r == (if e % 2 = 0 then m <<< 128 else (2 * m) <<< 128)
      f32.enc (.fin false (2 * r + (if exact then 0 else 1)) (q - 1))

/-- A comparison m1 * 2^e1 ≤ m2 * 2^e2 of signed numbers. -/
def dyLe (m1 : Int) (e1 : Int) (m2 : Int) (e2 : Int) : Bool :=
  let e := min e1 e2
  decide (m1 * 2 ^ (e1 - e).toNat ≤ m2 * 2 ^ (e2 - e).toNat)

/-- Whether a code is within k ulp of 1 / (m * 2^e) (07 R180). -/
def rcpNear (neg : Bool) (m : Nat) (e : Int) (k : Nat) (c : Nat) : Bool :=
  match f32.dec c with
  | .fin n mc ec =>
    let log := if m = 2 ^ m.log2 then (m.log2 : Int) else m.log2 + 1
    let q := max (-(log + e) - 23) (-149)
    n == neg && dyLe ((mc : Int) * m) (ec + e) (2 ^ 200 + (k * m : Nat) * 2 ^ (q + e + 200).toNat) (-200) &&
      dyLe (2 ^ 200 - (k * m : Nat) * 2 ^ (q + e + 200).toNat) (-200) ((mc : Int) * m) (ec + e)
  | _ => false

/-- RCP: the free value where it keeps the bound of one ulp, else the correctly rounded quotient (DESIGN CHOICE, log 10). -/
def rcpF32 (x : Nat) : Nat × Nat :=
  match f32.dec x with
  | .nan => (f32.nan, 0)
  | .inf n => (n.toNat * f32.signBit, 0)
  | .fin n m e =>
    if m = 0 then (n.toNat * f32.signBit + f32.infBits, fDZ)
    else
      let num := 2 ^ 120
      let r := f32.enc (.fin n (2 * (num / m) + (if num % m = 0 then 0 else 1)) (-121 - e))
      if f32.infBits ≤ r.1 % f32.signBit then (r.1, 4)
      else
        let c := (Config.rcpBits (BitVec.ofNat 32 x)).toNat
        (if rcpNear n m e 1 c then c else r.1, 0)

/-- Whether a positive code is within two ulp of 1 / sqrt(m * 2^e) (07 R180). -/
def rsqrtNear (m : Nat) (e : Int) (top : Int) (c : Nat) : Bool :=
  match f32.dec c with
  | .fin false mc ec =>
    let q := max (top - 23) (-149)
    let w := min ec q
    let mid : Int := (mc : Int) * 2 ^ (ec - w).toNat
    let u : Int := 2 * 2 ^ (q - w).toNat
    let lo := max (mid - u) 0
    dyLe (lo * lo * m) (2 * w + e) 1 0 && dyLe 1 0 ((mid + u) * (mid + u) * m) (2 * w + e)
  | _ => false

/-- RSQRT: the free value where it keeps the bound of two ulp, else 1 over the root rounded from its 60 leading bits (DESIGN CHOICE, log 10). -/
def rsqrtF32 (x : Nat) : Nat × Nat :=
  match f32.dec x with
  | .nan => (f32.nan, 0)
  | .inf n => if n then (f32.nan, fIV) else (0, 0)
  | .fin n m e =>
    if m = 0 then (n.toNat * f32.signBit + f32.infBits, fDZ)
    else if n then (f32.nan, fIV)
    else
      let (r, q) := sqrtParts m e
      let v := 2 ^ 160 / r
      let near := f32.enc (.fin false v (-160 - q))
      let c := (Config.rsqrtBits (BitVec.ofNat 32 x)).toNat
      (if rsqrtNear m e ((v.log2 : Int) - 160 - q) c then c else near.1, 0)

/-! ### Fixed-point values, in units of 2^(-256); errors stay below 2^(-240) -/

/-- Terms of t + t*x/(i+1) + t*x*x/((i+1)*(i+2)) + ...: the exponential series. -/
def expTerms (x : Nat) : Nat → Nat → Nat → Nat
  | 0, _, t => t
  | n + 1, i, t => t + expTerms x n (i + 1) (t * x / (2 ^ 256 * (i + 1)))

/-- e^x of a fixed-point number up to 18. -/
def expFix (x : Nat) : Nat := expTerms x 200 0 (2 ^ 256)

/-- Terms t/i + t*y2/(i+2) + ... of the inverse hyperbolic tangent. -/
def atanhTerms (y2 : Nat) : Nat → Nat → Nat → Nat
  | 0, _, _ => 0
  | n + 1, i, t => t / i + atanhTerms y2 n (i + 2) (t * y2 / 2 ^ 256)

/-- Natural logarithm of v/d, 1 ≤ v/d ≤ 2. -/
def lnFix (v d : Nat) : Nat :=
  let y := (v - d) * 2 ^ 256 / (v + d)
  2 * atanhTerms (y * y / 2 ^ 256) 90 1 y

/-- 2^f of a fixed-point fraction. -/
def exp2Fix (x : Nat) : Nat := expFix (x * lnFix 2 1 / 2 ^ 256)

/-- log2 of m * 2^e. -/
def log2Fix (m : Nat) (e : Int) : Int :=
  ((m.log2 : Int) + e) * 2 ^ 256 + (lnFix m (2 ^ m.log2) * 2 ^ 256 / lnFix 2 1 : Nat)

/-- tanh of a fixed-point number up to 9. -/
def tanhFix (x : Nat) : Nat := let y := expFix (2 * x); (y - 2 ^ 256) * 2 ^ 256 / (y + 2 ^ 256)

/-- Exponent of a binary32 ulp of v * 2^s. -/
def ulpExp (v : Nat) (s : Int) : Int := max ((v.log2 : Int) + s - 23) (-149)

/-- Whether a code lies within k * 2^q of v * 2^s (07 R180). -/
def fixNear (v : Int) (s : Int) (k : Nat) (q : Int) (c : Nat) : Bool :=
  match f32.dec c with
  | .fin n mc ec =>
    let w := min ec (min s q)
    let x : Int := (if n then -(mc : Int) else mc) * 2 ^ (ec - w).toNat
    let y : Int := v * 2 ^ (s - w).toNat
    decide ((x - y).natAbs ≤ k * 2 ^ (q - w).toNat)
  | _ => false

/-- The free value c where it keeps its bound and flushes no subnormal result to zero (06 R147), else the nearest code (DESIGN CHOICE, log 10). -/
def fixPick (v : Int) (s : Int) (k : Nat) (q : Int) (c : Nat) : Nat :=
  let near := (f32.enc (.fin (v < 0) v.natAbs s)).1
  let mag := near % f32.signBit
  if fixNear v s k q c && !(c % f32.signBit = 0 && 0 < mag && mag < 2 ^ 23) then c else near

/-- EXP2: exact for integers from -149 to 127, the range cases of R181, else a free value within two ulp (DESIGN CHOICE, log 10). -/
def exp2F32 (x : Nat) : Nat × Nat :=
  match f32.dec x with
  | .nan => (f32.nan, 0)
  | .inf n => if n then (0, 0) else (f32.infBits, 0)
  | .fin n m e =>
    if !n && dyLe 128 0 m e then (f32.infBits, 4)
    else if n && !dyLe m e 150 0 then (0, 8)
    else
      let (r, nx) := rneShift m e 0
      if !nx && r ≤ (if n then 149 else 127) then ((f32.enc (.fin false 1 (if n then -(r : Int) else r))).1, 0)
      else
        let a : Int := (if n then -(m : Int) else m) * 2 ^ (e + 256).toNat
        let v := exp2Fix (a % 2 ^ 256).toNat
        let s : Int := a / 2 ^ 256 - 256
        (fixPick v s 2 (ulpExp v s) (Config.exp2Bits (BitVec.ofNat 32 x)).toNat, 0)

/-- LOG2: the cases of R181, else a free value within two ulp, or within 2^(-22) from 0.5 to 2 (DESIGN CHOICE, log 10). -/
def log2F32 (x : Nat) : Nat × Nat :=
  match f32.dec x with
  | .nan => (f32.nan, 0)
  | .inf n => if n then (f32.nan, fIV) else (f32.infBits, 0)
  | .fin n m e =>
    if m = 0 then (f32.signBit + f32.infBits, fDZ)
    else if n then (f32.nan, fIV)
    else if x = 0x3F800000 then (0, 0)
    else
      let v := log2Fix m e
      let inside := dyLe 1 (-1) m e && dyLe m e 2 0
      (fixPick v (-256) (if inside then 1 else 2) (if inside then -22 else ulpExp v.natAbs (-256)) (Config.log2Bits (BitVec.ofNat 32 x)).toNat, 0)

/-- TANH of a magnitude m * 2^e below 9, in units of 2^(-456): below 2^(-60), where it is less than its operand by less than any bound can tell, the operand less one unit. -/
def tanhFine (m : Nat) (e : Int) : Nat :=
  if m = 0 then 0
  else if dyLe m e 1 (-60) then m * 2 ^ (e + 456).toNat - 1
  else tanhFix (m * 2 ^ (e + 256).toNat) * 2 ^ 200

/-- TANH: plus or minus 1.0 from 9.0 on and at infinity, else a free value within four ulp (DESIGN CHOICE, log 10). -/
def tanhF32 (x : Nat) : Nat × Nat :=
  match f32.dec x with
  | .nan => (f32.nan, 0)
  | .inf n => (n.toNat * f32.signBit + 0x3F800000, 0)
  | .fin n m e =>
    if dyLe 9 0 m e then (n.toNat * f32.signBit + 0x3F800000, 0)
    else
      let v := tanhFine m e
      (fixPick (if n then -(v : Int) else v) (-456) 4 (ulpExp v (-456)) (Config.tanhBits (BitVec.ofNat 32 x)).toNat, 0)

end Sys2Proof.Machine
end

