-- ==== Sys2Proof/Machine/Operands.lean ====
section
/-! DEFINITION. Operands.lean: element formats, group scales and stochastic rounding (06), vector lanes and memory forms (07 R164, R183), and the bits of a bundle's slots (03 R53, R54). -/

namespace Sys2Proof.Machine

/-! ## Element formats (06 R142-R149) -/

/-- The narrow element formats. -/
inductive Elem where
  | i8
  | i4
  | e4m3
  | e5m2
  | fp4
  deriving DecidableEq, Repr

/-- Bits of an element code. -/
def Elem.bits : Elem → Nat
  | .i4 => 4
  | .fp4 => 4
  | _ => 8

/-- Exponent of the factor f of a grouped element (06 R142). -/
def Elem.fexp : Elem → Int
  | .i8 => -6
  | .i4 => -2
  | _ => 0

/-- emax: the exponent of the largest finite value, factor included (07 R179). -/
def Elem.emax : Elem → Int
  | .e4m3 => 8
  | .e5m2 => 15
  | .fp4 => 2
  | _ => 0

/-- Mantissa bits of a floating element format. -/
def Elem.mb : Elem → Nat
  | .e4m3 => 3
  | .e5m2 => 2
  | _ => 1

/-- Bias of a floating element format. -/
def Elem.bias : Elem → Nat
  | .e4m3 => 7
  | .e5m2 => 15
  | _ => 1

/-- Whether the codes are integers. -/
def Elem.isInt : Elem → Bool
  | .i8 => true
  | .i4 => true
  | _ => false

/-- Magnitude code of the largest finite value (06 R145). -/
def Elem.maxMag : Elem → Nat
  | .e4m3 => 0x7E
  | .e5m2 => 0x7B
  | .fp4 => 7
  | .i8 => 127
  | .i4 => 7

/-- Exponent of the unit of an element format: every finite value is a whole number of units (05 R120). -/
def Elem.unit (f : Elem) : Int := if f.isInt then 0 else 1 - (f.bias : Int) - f.mb

/-- The value of an element code; the factor and the scale enter apart (06 R143). -/
def Elem.val (f : Elem) (code : Nat) : Fp :=
  let n := f.bits
  let c := code % 2 ^ n
  if f.isInt then
    let v := sext n c
    .fin (v < 0) v.natAbs 0
  else
    let neg := 2 ^ (n - 1) ≤ c
    let mag := c % 2 ^ (n - 1)
    match f with
    | .e4m3 => if mag = 0x7F then .nan else magVal neg 3 7 mag
    | .e5m2 => if mag = 0x7C then .inf neg else if 0x7C < mag then .nan else magVal neg 2 15 mag
    | _ => magVal neg 1 1 mag

/-- Whether a value is zero or a code reads as zero in the array (05 R121). -/
def Elem.isZero (f : Elem) (code : Nat) : Bool := (f.val code).isZero

/-- A scaled value: v * f * 2^(e - 127). -/
def Fp.scale (v : Fp) (k : Int) : Fp :=
  match v with
  | .fin n m e => .fin n m (e + k)
  | x => x

/-- Dequantising one element to FP32 (06 R153) and its exception conditions. -/
def dequant (f : Elem) (code scale : Nat) : Nat × Nat :=
  if scale % 256 = 0xFF then (f32.nan, 0) else f32.enc ((f.val code).scale (f.fexp + (scale % 256 : Nat) - 127))

/-- The code of a NaN in a format (06 R148, R155). -/
def Elem.nanCode : Elem → Nat
  | .e4m3 => 0x7F
  | .e5m2 => 0x7E
  | _ => 0

/-- encode of 06 R155 with the conditions of R415: FP32 bits v under scale byte e. -/
def encodeElem (f : Elem) (v e : Nat) : Nat × Nat :=
  let n := f.bits
  if e = 0xFF then (0, 0)
  else
    match f32.dec v with
    | .nan => (f.nanCode, 0)
    | .inf s =>
      match f with
      | .e5m2 => (if s then 0xFC else 0x7C, 0)
      | .e4m3 => (0x7F, fIV)
      | .fp4 => (if s then 0xF else 0x7, fIV)
      | .i8 => (if s then 0x80 else 0x7F, fIV)
      | .i4 => (if s then 0x8 else 0x7, fIV)
    | .fin s m ex =>
      let w := ex - (f.fexp + (e : Int) - 127)
      if f.isInt then
        let (r, nx) := rneShift m w 0
        let lim := if s then 2 ^ (n - 1) else 2 ^ (n - 1) - 1
        let q := min r lim
        (if s then (2 ^ n - q) % 2 ^ n else q, if lim < r then fOF else if nx then fNX else 0)
      else if m = 0 then (s.toNat * 2 ^ (n - 1), 0)
      else
        let (mag, nx, tiny) := roundMag f.mb (1 - (f.bias : Int) - f.mb) m w
        (s.toNat * 2 ^ (n - 1) + min mag f.maxMag,
          if f.maxMag < mag then fOF else if nx then (if tiny then fUF else fNX) else 0)

/-- choose_scale of 07 R179 over the FP32 bits of a group. -/
def chooseScale (f : Elem) (vs : List Nat) : Nat :=
  if vs.any (fun v => (f32.dec v).isNan) then 0xFF
  else
    let ks := vs.filterMap (fun v => match f32.dec v with
      | .fin _ m e => if m = 0 then none else some ((m.log2 : Int) + e)
      | _ => none)
    match ks with
    | [] => 127
    | k :: rest => (min (max (rest.foldl max k - f.emax + 127) 0) 254).toNat

/-! ## Stochastic rounding (06 R160, R161) -/

/-- One step of a lane's generator. -/
def srNext (x : BitVec 32) : BitVec 32 :=
  let x := x ^^^ (x <<< 13)
  let x := x ^^^ (x >>> 17)
  x ^^^ (x <<< 5)

/-- A lane's state at the start of a chain. -/
def srStart (seed : BitVec 32) (lane : Nat) : BitVec 32 :=
  let x := seed + BitVec.ofNat 32 (lane + 1) * 0x9E3779B9#32
  if x = 0 then 0x9E3779B9#32 else x

/-- n steps of the generator. -/
def srIter : Nat → BitVec 32 → BitVec 32
  | 0, x => x
  | n + 1, x => srIter n (srNext x)

/-- The draw of element i of a chain: lane i mod 512, that lane's draw i div 512 (06 R160). -/
def srDraw (seed : BitVec 32) (i : Nat) : BitVec 32 := srIter (i / 512 + 1) (srStart seed (i % 512))

/-- sr_bf16 (06 R161). -/
def srBf16 (x : Nat) (u : BitVec 32) : Nat :=
  let mag := x % 2 ^ 31
  let s := x / 2 ^ 31 % 2 * 2 ^ 15
  if 0x7F800000 < mag then 0x7FC0
  else if mag = 0x7F800000 then s + 0x7F80
  else
    let r := (mag + u.toNat / 65536) / 65536
    s + (if r = 0x7F80 then 0x7F7F else r)

/-- sr_code (06 R161), for INT8 and E4M3. -/
def srCode (f : Elem) (x e : Nat) (u : BitVec 32) : Nat :=
  let v := u.toNat / 65536
  match f32.dec x with
  | .fin s m ex =>
    if e = 0xFF then (encodeElem f x e).1
    else if m = 0 then (encodeElem f x e).1
    else
      let w := ex - (f.fexp + (e : Int) - 127)
      let k := (m.log2 : Int) + w
      let q : Int := if f.isInt then 0 else max (k - f.mb) (1 - (f.bias : Int) - f.mb)
      let lo := if q ≤ w then m <<< (w - q).toNat else m >>> (q - w).toNat
      let t := if q ≤ w then 0 else ((m % 2 ^ (q - w).toNat) <<< 16) >>> (q - w).toNat
      let units := if 65536 ≤ t + v then lo + 1 else lo
      if f.isInt then
        let lim := if s then 128 else 127
        if lim < lo || (lo == lim && 0 < t) then (encodeElem f x e).1
        else (if s then (256 - units) % 256 else units)
      else
        let mag := fun (r : Nat) => (q - (1 - (f.bias : Int) - f.mb)).toNat * 2 ^ f.mb + r
        if f.maxMag < mag lo || (mag lo == f.maxMag && 0 < t) then (encodeElem f x e).1
        else s.toNat * 128 + mag units
  | _ => (encodeElem f x e).1

/-! ## Vector registers: 512 lanes of 32 bits (07 R163) -/

/-- The lanes of a register. -/
def lanes (v : BitVec 16384) : List Nat := (List.range 512).map (fun l => (v.extractLsb' (32 * l) 32).toNat)

/-- A register from its lanes. -/
def ofLanes (l : List Nat) : BitVec 16384 := BitVec.ofNat 16384 (l.foldr (fun x n => x % 2 ^ 32 + 2 ^ 32 * n) 0)

/-- Bits of a predicate register, one per lane, from Booleans. -/
def ofBools (l : List Bool) : BitVec 512 := BitVec.ofNat 512 (l.foldr (fun b n => b.toNat + 2 * n) 0)

/-- Sub-lanes of a lane: n elements of w bits (07 R164). -/
def subLanes (w : Nat) (x : Nat) : List Nat := (List.range (32 / w)).map (fun k => x / 2 ^ (w * k) % 2 ^ w)

/-- A lane from sub-lanes of w bits. -/
def ofSubLanes (w : Nat) (l : List Nat) : Nat := l.foldr (fun x n => x % 2 ^ w + 2 ^ w * n) 0

/-- Bytes of a vector register in order. -/
def regBytes (v : BitVec 16384) : List Byte := leBytes 2048 v.toNat

/-- Line n of a vector register. -/
def regLine (v : BitVec 16384) (n : Nat) : Line := v.extractLsb' (512 * n) 512

/-- A register with line n replaced. -/
def setRegLine (v : BitVec 16384) (n : Nat) (l : Line) : BitVec 16384 :=
  (v &&& ~~~((BitVec.allOnes 512).setWidth 16384 <<< (512 * n))) ||| (l.setWidth 16384 <<< (512 * n))

/-- G from FN[6:5] of VQG, VDQ, NQ8 and NQ4: 32, 64 or 128; 0 when reserved (07 R183). -/
def groupOf (code : Nat) : Nat := if code % 4 = 0 then 0 else 16 * 2 ^ (code % 4)

/-- Bytes that a form covers (07 R183). -/
def formBytes : Nat → Nat
  | 0 => 1024
  | 1 => 1024
  | 2 => 1024
  | 3 => 512
  | 4 => 64
  | 5 => 256
  | 6 => 576
  | _ => 320

/-- Packs 4-bit codes two to a byte (06 R150). -/
def packNibbles : List Nat → List Byte
  | a :: b :: rest => BitVec.ofNat 8 (a % 16 + 16 * (b % 16)) :: packNibbles rest
  | [a] => [BitVec.ofNat 8 (a % 16)]
  | [] => []

/-- The memory side of a store of a register in a form (07 R183). fn: its G for NQ8 and NQ4. -/
def storeBytes (form : Nat) (fn : BitVec 7) (v : BitVec 16384) : List Byte :=
  let ls := lanes v
  let g := groupOf (fld fn 6 5)
  let scales := ((List.range (512 / max g 1)).map (fun j => BitVec.ofNat 8 (ls.getD (j * g) 0 / 256)))
  let scaleLine := (scales ++ List.replicate 64 0).take 64
  match form with
  | 0 => (regBytes v).take 1024
  | 1 => (regBytes v).drop 1024
  | 2 => ls.flatMap (fun x => leBytes 2 x)
  | 3 => ls.map (fun x => BitVec.ofNat 8 x)
  | 4 => (regBytes v).take 64
  | 5 => packNibbles ls
  | 6 => ls.map (fun x => BitVec.ofNat 8 x) ++ scaleLine
  | _ => packNibbles ls ++ scaleLine

/-- Sign- or zero-extends a w-bit element to a lane (07 R183). -/
def extend (signed : Bool) (w x : Nat) : Nat := if signed && 2 ^ (w - 1) ≤ x % 2 ^ w then x % 2 ^ w + 2 ^ 32 - 2 ^ w else x % 2 ^ w

/-- Unpacks bytes into 4-bit codes (06 R150). -/
def unpackNibbles (l : List Byte) : List Nat := l.flatMap (fun b => [b.toNat % 16, b.toNat / 16])

/-- The register after a load of a form from bytes, other bytes of it kept (07 R183). -/
def loadReg (form : Nat) (fn : BitVec 7) (old : BitVec 16384) (b : List Byte) : BitVec 16384 :=
  let signed := bit fn 0
  let g := max (groupOf (fld fn 6 5)) 1
  let withScale := fun (codes : List Nat) (scales : List Byte) =>
    ofLanes (codes.zipIdx.map (fun e => e.1 + 256 * (byteAt scales (e.2 / g)).toNat))
  match form with
  | 0 => BitVec.ofNat 16384 (leNat (b ++ (regBytes old).drop 1024))
  | 1 => BitVec.ofNat 16384 (leNat ((regBytes old).take 1024 ++ b))
  | 2 => ofLanes ((List.range 512).map (fun l => extend signed 16 (leNat [byteAt b (2 * l), byteAt b (2 * l + 1)])))
  | 3 => ofLanes (b.map (fun x => extend signed 8 x.toNat))
  | 4 => setRegLine old 0 (bytesLine b)
  | 5 => ofLanes ((unpackNibbles b).map (extend signed 4))
  | 6 => withScale ((b.take 512).map BitVec.toNat) (b.drop 512)
  | _ => withScale (unpackNibbles (b.take 256)) (b.drop 256)

/-! ## Bundles (03 R53, R54) -/

/-- The slots of a bundle. -/
structure Bundle where
  ctl : BitVec 48
  syn : BitVec 48
  str : BitVec 96
  vec : BitVec 64
  m : Vector (BitVec 64) 4
  deriving DecidableEq, Repr

/-- The empty bundle. -/
def Bundle.empty : Bundle := { ctl := 0, syn := 0, str := 0, vec := 0, m := .replicate 4 0 }

/-- The bundle that 64 bytes hold (03 R53). -/
def Bundle.ofLine (l : Line) : Bundle :=
  { ctl := l.extractLsb' 464 48, syn := l.extractLsb' 416 48, str := l.extractLsb' 320 96, vec := l.extractLsb' 256 64,
    m := #v[l.extractLsb' 0 64, l.extractLsb' 64 64, l.extractLsb' 128 64, l.extractLsb' 192 64] }

/-- A cause to halt at issue, in the order of 03 R73: rank 0 fetch, 1 to 4 reasons 0x01, 0x02, 0x12, 0x10 over all slots, 5 a slot's remaining checks, 6 HALT. -/
structure Cause where
  rank : Nat
  slot : Nat
  reason : Nat
  detail : Nat
  deriving DecidableEq, Repr

/-- Reserved opcode (0x01). -/
def Cause.opcode (slot opc : Nat) : Cause := ⟨1, slot, 0x01, opc⟩
/-- Reserved bits or value (0x02), at a bit of the bundle. -/
def Cause.reserved (slot pos : Nat) : Cause := ⟨2, slot, 0x02, pos⟩
/-- Instruction of the other port mode (0x12). -/
def Cause.port (slot opc : Nat) : Cause := ⟨3, slot, 0x12, opc⟩
/-- Slot conflict (0x10): resource, bits 15:8, bits 17:16 (03 R76, R419). -/
def Cause.conflict (slot res sub : Nat) (dir : Nat := 0) : Cause := ⟨4, slot, 0x10, res + 256 * sub + 65536 * dir⟩
/-- A remaining check of a slot. -/
def Cause.check (slot reason detail : Nat) : Cause := ⟨5, slot, reason, detail⟩

/-- The cause a bundle records: the first in the order of 03 R73; causes come in slot order and in each slot's own order. -/
def firstCause (l : List Cause) : Option Cause :=
  l.foldl (fun b c => match b with
    | none => some c
    | some x => if c.rank < x.rank then some c else b) none

/-- Bits of a slot word outside an allowed mask: the reserved-bit cause at the lowest of them (03 R54, R419). -/
def reservedBits {n : Nat} (slot base : Nat) (w allowed : BitVec n) : List Cause :=
  let bad := w &&& ~~~allowed
  if bad = 0 then [] else [Cause.reserved slot (base + lowestBit bad)]

/-- A mask of the bit ranges (high, low). -/
def maskOf (n : Nat) (l : List (Nat × Nat)) : BitVec n :=
  l.foldl (fun m r => m ||| BitVec.ofNat n ((2 ^ (r.1 - r.2 + 1) - 1) <<< r.2)) 0

end Sys2Proof.Machine
end

