-- ==== Sys2Proof/Machine/Control.lean ====
section
/-! DEFINITION. Control.lean: the control slot (03 R60-R69, R72): its checks, the effect of each instruction on the control unit, the fetch address after a bundle, and the meanings of its commands. -/

namespace Sys2Proof.Machine

/-! ## Encoding (03 R60) -/

/-- Opcode of a 48-bit slot. -/
def opc48 (w : BitVec 48) : Nat := fld w 47 40

/-- The field bits of each control opcode; none: not defined. -/
def ctlMask : Nat → Option (BitVec 40)
  | 0x00 => some 0
  | 0x01 => some (maskOf 40 [(7, 0)])
  | 0x02 => some 0
  | 0x10 => some (maskOf 40 [(38, 36), (31, 0)])
  | 0x11 => some (maskOf 40 [(38, 36), (34, 32), (31, 0)])
  | 0x12 => some (maskOf 40 [(38, 36), (34, 32), (30, 28)])
  | 0x20 => some (maskOf 40 [(39, 36), (31, 0)])
  | 0x21 => some (maskOf 40 [(39, 36), (15, 0)])
  | 0x22 => some (maskOf 40 [(39, 36), (35, 32), (31, 0)])
  | 0x23 => some (maskOf 40 [(39, 36), (35, 32), (30, 28), (23, 0)])
  | 0x30 => some (maskOf 40 [(39, 36), (34, 32), (31, 0)])
  | 0x31 => some (maskOf 40 [(39, 36), (34, 32), (30, 28)])
  | 0x32 => some (maskOf 40 [(39, 36), (35, 32), (31, 28)])
  | 0x33 => some (maskOf 40 [(37, 36), (0, 0)])
  | 0x34 => some (maskOf 40 [(39, 36), (33, 32), (29, 28)])
  | 0x40 => some (maskOf 40 [(23, 0)])
  | 0x41 => some (maskOf 40 [(37, 35), (23, 0)])
  | 0x42 => some (maskOf 40 [(35, 32)])
  | 0x50 => some (maskOf 40 [(34, 32), (15, 0)])
  | _ => none

/-- Counter number in bits hi:lo. -/
def ctrIdx (w : BitVec 40) (lo : Nat) : Fin 8 := Fin.ofNat 8 (fld w (lo + 2) lo)
/-- Pointer number at bit lo. -/
def ptrIdx (w : BitVec 40) (lo : Nat) : Fin 16 := Fin.ofNat 16 (fld w (lo + 3) lo)
/-- Flag number at bit lo. -/
def flagIdx (w : BitVec 40) (lo : Nat) : Fin 4 := Fin.ofNat 4 (fld w (lo + 1) lo)

/-- cond(a, b): EQ, NE, LTU, GEU (03 R60). -/
def ctlCond (cond : Nat) (a b : Nat) : Bool :=
  match cond with
  | 0 => a == b
  | 1 => a != b
  | 2 => a < b
  | _ => b ≤ a

/-- op(a, b): AND, OR, XOR, ANDN (03 R60). -/
def flagOp (op : Nat) (a b : Bool) : Bool :=
  match op with
  | 0 => a && b
  | 1 => a || b
  | 2 => a != b
  | _ => a && !b

/-! ## Effects on the control unit -/

/-- CSET: Cd = imm. -/
def csetOp (w : BitVec 40) (u : ControlUnit) : ControlUnit := { u with c := u.c.set (ctrIdx w 36) (w.extractLsb' 0 32) }

/-- CADD: Cd = Cs + imm modulo 2^32. -/
def caddOp (w : BitVec 40) (u : ControlUnit) : ControlUnit :=
  { u with c := u.c.set (ctrIdx w 36) (u.c[ctrIdx w 32] + w.extractLsb' 0 32) }

/-- CADDC: Cd = Cs + Ct modulo 2^32. -/
def caddcOp (w : BitVec 40) (u : ControlUnit) : ControlUnit :=
  { u with c := u.c.set (ctrIdx w 36) (u.c[ctrIdx w 32] + u.c[ctrIdx w 28]) }

/-- PSETL: Pd[31:0] = imm. -/
def psetlOp (w : BitVec 40) (u : ControlUnit) : ControlUnit :=
  { u with p := u.p.set (ptrIdx w 36) ((u.p[ptrIdx w 36]).extractLsb' 32 16 ++ w.extractLsb' 0 32) }

/-- PSETH: Pd[47:32] = imm. -/
def psethOp (w : BitVec 40) (u : ControlUnit) : ControlUnit :=
  { u with p := u.p.set (ptrIdx w 36) (w.extractLsb' 0 16 ++ (u.p[ptrIdx w 36]).extractLsb' 0 32) }

/-- PADD: Pd = Ps + sext(simm) modulo 2^48. -/
def paddOp (w : BitVec 40) (u : ControlUnit) : ControlUnit :=
  { u with p := u.p.set (ptrIdx w 36) (u.p[ptrIdx w 32] + (w.extractLsb' 0 32).signExtend 48) }

/-- PMAC: Pd = Ps + Ct * sext(simm) modulo 2^48, Ct unsigned. -/
def pmacOp (w : BitVec 40) (u : ControlUnit) : ControlUnit :=
  let product := (u.c[ctrIdx w 28]).setWidth 48 * (w.extractLsb' 0 24).signExtend 48
  { u with p := u.p.set (ptrIdx w 36) (u.p[ptrIdx w 32] + product) }

/-- KCMPC: Kd = cond(Cs, imm). -/
def kcmpcOp (w : BitVec 40) (u : ControlUnit) : ControlUnit :=
  { u with k := u.k.set (flagIdx w 36) (ctlCond (fld w 39 38) u.c[ctrIdx w 32].toNat (fld w 31 0)) }

/-- KCMPCC: Kd = cond(Cs, Ct). -/
def kcmpccOp (w : BitVec 40) (u : ControlUnit) : ControlUnit :=
  { u with k := u.k.set (flagIdx w 36) (ctlCond (fld w 39 38) u.c[ctrIdx w 32].toNat u.c[ctrIdx w 28].toNat) }

/-- KCMPP: Kd = cond(Ps, Pt). -/
def kcmppOp (w : BitVec 40) (u : ControlUnit) : ControlUnit :=
  { u with k := u.k.set (flagIdx w 36) (ctlCond (fld w 39 38) u.p[ptrIdx w 32].toNat u.p[ptrIdx w 28].toNat) }

/-- KSET: Kd = v. -/
def ksetOp (w : BitVec 40) (u : ControlUnit) : ControlUnit := { u with k := u.k.set (flagIdx w 36) (bit w 0) }

/-- KOP: Kd = op(Ks, Kt). -/
def kopOp (w : BitVec 40) (u : ControlUnit) : ControlUnit :=
  { u with k := u.k.set (flagIdx w 36) (flagOp (fld w 39 38) u.k[flagIdx w 32] u.k[flagIdx w 28]) }

/-- A branch issued at the present bundle: two delay bundles, then the target if it is taken (03 R63). -/
def branchOp (target : Option (BitVec 48)) (u : ControlUnit) : ControlUnit :=
  { u with redirect := some { left := 3, target := target, empties := false } }

/-- A + 64 * sext(off). -/
def branchTarget (w : BitVec 40) (u : ControlUnit) : BitVec 48 := u.pc + (w.extractLsb' 0 24).signExtend 48 <<< 6

/-- BR: always taken. -/
def brOp (w : BitVec 40) (u : ControlUnit) : ControlUnit := branchOp (some (branchTarget w u)) u

/-- Whether BK is taken: Ks = v at issue. -/
def bkTaken (w : BitVec 40) (u : ControlUnit) : Bool := u.k[flagIdx w 36] == bit w 35

/-- BK: taken if Ks equals v. -/
def bkOp (w : BitVec 40) (u : ControlUnit) : ControlUnit :=
  branchOp (if bkTaken w u then some (branchTarget w u) else none) u

/-- BP: branches to Ps. -/
def bpOp (w : BitVec 40) (u : ControlUnit) : ControlUnit := branchOp (some u.p[ptrIdx w 32]) u

/-- REP: opens a level over the next L bundles, or skips them when the count is 0 (03 R65). -/
def repOp (w : BitVec 40) (u : ControlUnit) : ControlUnit :=
  let l := fld w 15 0
  if u.c[ctrIdx w 32] = 0 then
    { u with redirect := some { left := 3, target := some (u.pc + BitVec.ofNat 48 (64 * (l + 1))), empties := true } }
  else
    { u with reps := { ctr := ctrIdx w 32, first := u.pc + 64, last := u.pc + BitVec.ofNat 48 (64 * l) } :: u.reps }

/-- FIN: the core is finished (03 R69). -/
def finOp (u : ControlUnit) : ControlUnit := { u with finished := true }

/-- The effect of a control slot by its opcode. -/
def ctlOp (bits : BitVec 48) : ControlUnit → ControlUnit :=
  let w := bits.extractLsb' 0 40
  match opc48 bits with
  | 0x02 => finOp
  | 0x10 => csetOp w
  | 0x11 => caddOp w
  | 0x12 => caddcOp w
  | 0x20 => psetlOp w
  | 0x21 => psethOp w
  | 0x22 => paddOp w
  | 0x23 => pmacOp w
  | 0x30 => kcmpcOp w
  | 0x31 => kcmpccOp w
  | 0x32 => kcmppOp w
  | 0x33 => ksetOp w
  | 0x34 => kopOp w
  | 0x40 => brOp w
  | 0x41 => bkOp w
  | 0x42 => bpOp w
  | 0x50 => repOp w
  | _ => id

/-! ## The fetch address after a bundle -/

/-- The repeat logic of 03 R67, levels innermost first: counters, levels left open, next address. -/
def repNext (a : BitVec 48) : List RepLevel → Vector (BitVec 32) 8 → Vector (BitVec 32) 8 × List RepLevel × BitVec 48
  | [], cs => (cs, [], a + 64)
  | l :: outer, cs =>
    if a ≠ l.last then (cs, l :: outer, a + 64)
    else
      let n := cs[l.ctr] - 1
      let cs' := cs.set l.ctr n
      if n ≠ 0 then (cs', l :: outer, l.first) else repNext a outer cs'

/-- The control unit after its bundle has issued: delay bundles, repeat loopback, next address (03 R63, R65, R67). Where a branch that is not taken, or one of its delay bundles, ends a repeat body, the loopback of R67 gives the next address, and the bundles it leads to are the delay bundles of R64 (DEDUCED, log 46). -/
def advance (u : ControlUnit) : ControlUnit :=
  match u.redirect with
  | none =>
    let r := repNext u.pc u.reps u.c
    { u with c := r.1, reps := r.2.1, pc := r.2.2 }
  | some d =>
    if d.left ≤ 1 then
      match d.target with
      | some t => { u with pc := t, redirect := none }
      | none =>
        let r := repNext u.pc u.reps u.c
        { u with c := r.1, reps := r.2.1, pc := r.2.2, redirect := none }
    else if d.empties then
      let r := repNext u.pc u.reps u.c
      { u with c := if d.left = 3 then r.1 else u.c, reps := if d.left = 3 then r.2.1 else u.reps,
               redirect := some { d with left := d.left - 1 } }
    else
      let r := repNext u.pc u.reps u.c
      { u with c := r.1, reps := r.2.1, pc := r.2.2, redirect := some { d with left := d.left - 1 } }

/-- The control slot's effect over the sync slot's: it reads the values from before the bundle (03 R55). An entry point of a committed transaction stays the next address (13 R323). -/
def controlAfter (old now : ControlUnit) (bits : BitVec 48) (flag : Option (Fin 4 × Bool)) : ControlUnit :=
  let u := ctlOp bits old
  let u := { u with
    waiting := now.waiting
    deadline := now.deadline
    wait := now.wait
    k := match flag with | some x => u.k.set x.1 x.2 | none => u.k }
  advance (match old.redirect with
    | some d => if d.left ≤ 1 then { u with redirect := some d } else u
    | none => u)

/-- The core issues an unfetched empty bundle: one of the two after a zero-count REP (03 R65). -/
def ControlUnit.skipping (u : ControlUnit) : Bool :=
  match u.redirect with
  | some d => d.empties && d.left ≤ 2
  | none => false

/-- The bundle at issue is a delay bundle of a branch (03 R63). -/
def ControlUnit.inDelay (u : ControlUnit) : Bool :=
  match u.redirect with
  | some d => !d.empties && d.left ≤ 2
  | none => false

/-- Whether the repeat logic of 03 R67 loops some level back after the bundle at a. -/
def repLoops (a : BitVec 48) : List RepLevel → Vector (BitVec 32) 8 → Bool
  | [], _ => false
  | l :: outer, cs => a == l.last && (cs[l.ctr] - 1 != 0 || repLoops a outer (cs.set l.ctr (cs[l.ctr] - 1)))

/-- The bundle at issue loops a repeat level back, its own or an outer one (03 R67). -/
def ControlUnit.loopsBack (u : ControlUnit) : Bool := repLoops u.pc u.reps u.c

/-! ## Checks -/

/-- The mask of a core's non-zero sync counters (10 R253). -/
def SyncUnit.nonZero (y : SyncUnit) : Nat :=
  y.s.toList.zipIdx.foldl (fun n e => if e.1 = 0 then n else n + 2 ^ e.2) 0

/-- A taken branch's claims on the fetch redirect (03 R56, R64, R68). -/
def branchCauses (taken : Bool) (u : ControlUnit) : List Cause :=
  (if u.inDelay then [Cause.conflict 0 3 0] else []) ++ (if taken && !u.reps.isEmpty then [Cause.conflict 0 3 0] else [])

/-- A control-slot write of a counter that a repeat level owns (03 R56). -/
def ctrCauses (d : Fin 8) (u : ControlUnit) : List Cause :=
  if u.reps.any (fun l => l.ctr == d) then [Cause.conflict 0 1 d.val] else []

/-- The checks of REP (03 R56, R64, R65, R67). -/
def repCauses (w : BitVec 40) (u : ControlUnit) : List Cause :=
  let l := fld w 15 0
  let last := u.pc.toNat + 64 * l
  (if u.inDelay then [Cause.conflict 0 3 0] else []) ++
  (if l = 0 then [Cause.check 0 0x0D 464]
   else if u.c[ctrIdx w 32] = 0 then (if u.loopsBack then [Cause.conflict 0 3 0] else [])
   else (if 4 ≤ u.reps.length then [Cause.conflict 0 4 0] else []) ++
        (if u.reps.any (fun e => e.last.toNat < last) then [Cause.conflict 0 4 0] else []))

/-- The causes to halt that a control slot raises by itself, in order. -/
def ctlCauses (u : ControlUnit) (y : SyncUnit) (bits : BitVec 48) : List Cause :=
  let w := bits.extractLsb' 0 40
  match ctlMask (opc48 bits) with
  | none => [Cause.opcode 0 (opc48 bits)]
  | some m =>
    reservedBits 0 464 w m ++
    match opc48 bits with
    | 0x01 =>
      let code := fld w 7 0
      if code = 0 then [⟨6, 0, 0x0F, 0⟩] else if code < 0x80 then [Cause.reserved 0 464] else [⟨6, 0, code, 0⟩]
    | 0x02 => if y.nonZero = 0 then [] else [Cause.check 0 0x09 y.nonZero]
    | 0x10 => ctrCauses (ctrIdx w 36) u
    | 0x11 => ctrCauses (ctrIdx w 36) u
    | 0x12 => ctrCauses (ctrIdx w 36) u
    | 0x40 => branchCauses true u
    | 0x41 => branchCauses (bkTaken w u) u
    | 0x42 => branchCauses true u ++
        (if u.p[ptrIdx w 32].toNat % 64 = 0 then [] else [Cause.check 0 0x04 u.p[ptrIdx w 32].toNat])
    | 0x50 => repCauses w u
    | _ => []

/-- The flag that a control slot writes (03 R56). -/
def ctlFlag (bits : BitVec 48) : Option (Fin 4) :=
  if 0x30 ≤ opc48 bits && opc48 bits ≤ 0x34 then some (flagIdx (bits.extractLsb' 0 40) 36) else none

/-! ## Issue of one slot's instruction by itself (DESIGN CHOICE, log 3) -/

/-- A core issues in the present cycle: its partition runs and is not held, and it has neither halted nor finished (02 R28, 03 R69, R71). -/
def State.issues (s : State) (c : CoreId) : Bool :=
  match s.partOf c with
  | none => false
  | some p => (s.part p).issuing && !(s.core c).ctl.halted && !(s.core c).ctl.finished

/-- The halt at issue of a core for a cause (03 R71). -/
def State.haltAt (s : State) (c : CoreId) (x : Cause) : State :=
  s.haltCore c false x.slot x.reason (s.core c).ctl.pc x.detail true

/-- A slot instruction whose checks pass takes its effect; the first failing check halts the core (03 R71, R73). -/
def issueSlot (c : CoreId) (causes : List Cause) (effect : State → State) (s : State) : Result :=
  if s.issues c then
    match firstCause causes with
    | some x => .next (s.haltAt c x)
    | none => .next (effect s)
  else .next s

/-- A control-slot instruction: its opcode and bits, its effect on the control unit. -/
def issueControl (c : CoreId) (opc : BitVec 8) (w : BitVec 40) (f : ControlUnit → ControlUnit) (s : State) : Result :=
  issueSlot c (ctlCauses (s.core c).ctl (s.core c).syn (opc ++ w)) (fun s => s.modCtl c f) s

/-! ### Local arrivals at a spanning barrier (10 R251, R255) -/

/-- Depth of a core in the confluence tree (10 R252). -/
def depth (c : CoreId) : Nat := coreY c + 1 + (if coreX c ≤ 3 then 3 - coreX c else coreX c - 4)

/-- Scope of a barrier id (10 R257): 0 unused, 1 partition-wide, 2 spanning. -/
def SyncUnit.scopeOf (y : SyncUnit) (id : Fin 16) : Nat := fld y.scope (2 * id.val + 1) (2 * id.val)

/-- Every core of a partition has arrived at an id, or finished early enough to count, once the last of some arrivals reaches the root in cycle r (10 R251, R252). -/
def State.allArrived (s : State) (p : PartId) (id : Fin 16) (r : Nat) : Bool :=
  (s.coresOf p).all (fun c => let k := s.core c
    k.syn.bar[id] == .arrived || (k.ctl.finished && k.ctl.finCyc + 4 * depth c ≤ r))

/-- All local members of a spanning id have arrived or count as arrived: its completion is awaited, due at the count that its last arrival set, or where a FIN completes them later, no earlier than 8 past it (10 R255; 02 R34). -/
def State.spanFill (s : State) (c : CoreId) (p : PartId) (id : Fin 16) : State :=
  let q := s.part p
  let r := q.roots[id]
  let last := r.coming.foldl (fun n x => max n x.2) 0
  if (s.core c).syn.scopeOf id = 2 && !r.spanWaiting && !r.coming.isEmpty && s.allArrived p id last then
    s.modPart p (fun q => { q with roots := q.roots.set id { r with spanWaiting := true, spanDue := max r.spanDue (q.count + 8) } })
  else s

/-- FIN's effect beyond the control unit: the cycle it finished (03 R69); it may complete barriers (10 R251). The core closes with the end of that cycle (11 R271). -/
def State.finishCore (s : State) (c : CoreId) : State :=
  match s.partOf c with
  | none => s
  | some p => all16.foldl (fun s id => s.spanFill c p id) (s.modCtl c (fun u => { u with finCyc := (s.part p).now }))

/-! ## Meanings of the control-slot commands -/

/-- NOP (03 R54): the no-operation of any slot changes no state. -/
def execNop (_core : CoreId) (_slot : Fin 8) (s : State) : Result := .next s

/-- HALT code (03 R72). -/
def execHalt (core : CoreId) (w : BitVec 40) (s : State) : Result := issueControl core 0x01 w id s

/-- FIN (03 R69). -/
def execFin (core : CoreId) (w : BitVec 40) (s : State) : Result :=
  issueSlot core (ctlCauses (s.core core).ctl (s.core core).syn (0x02#8 ++ w)) (fun s => (s.modCtl core finOp).finishCore core) s

/-- CSET Cd, imm (03 R60). -/
def execCset (core : CoreId) (w : BitVec 40) (s : State) : Result := issueControl core 0x10 w (csetOp w) s

/-- CADD Cd, Cs, imm (03 R60). -/
def execCadd (core : CoreId) (w : BitVec 40) (s : State) : Result := issueControl core 0x11 w (caddOp w) s

/-- CADDC Cd, Cs, Ct (03 R60). -/
def execCaddc (core : CoreId) (w : BitVec 40) (s : State) : Result := issueControl core 0x12 w (caddcOp w) s

/-- PSETL Pd, imm (03 R60). -/
def execPsetl (core : CoreId) (w : BitVec 40) (s : State) : Result := issueControl core 0x20 w (psetlOp w) s

/-- PSETH Pd, imm (03 R60). -/
def execPseth (core : CoreId) (w : BitVec 40) (s : State) : Result := issueControl core 0x21 w (psethOp w) s

/-- PADD Pd, Ps, simm (03 R60). -/
def execPadd (core : CoreId) (w : BitVec 40) (s : State) : Result := issueControl core 0x22 w (paddOp w) s

/-- PMAC Pd, Ps, Ct, simm (03 R60). -/
def execPmac (core : CoreId) (w : BitVec 40) (s : State) : Result := issueControl core 0x23 w (pmacOp w) s

/-- KCMPC Kd, Cs, imm, cond (03 R60). -/
def execKcmpc (core : CoreId) (w : BitVec 40) (s : State) : Result := issueControl core 0x30 w (kcmpcOp w) s

/-- KCMPCC Kd, Cs, Ct, cond (03 R60). -/
def execKcmpcc (core : CoreId) (w : BitVec 40) (s : State) : Result := issueControl core 0x31 w (kcmpccOp w) s

/-- KCMPP Kd, Ps, Pt, cond (03 R60). -/
def execKcmpp (core : CoreId) (w : BitVec 40) (s : State) : Result := issueControl core 0x32 w (kcmppOp w) s

/-- KSET Kd, v (03 R60). -/
def execKset (core : CoreId) (w : BitVec 40) (s : State) : Result := issueControl core 0x33 w (ksetOp w) s

/-- KOP Kd, Ks, Kt, op (03 R60). -/
def execKop (core : CoreId) (w : BitVec 40) (s : State) : Result := issueControl core 0x34 w (kopOp w) s

/-- BR off (03 R63). -/
def execBr (core : CoreId) (w : BitVec 40) (s : State) : Result := issueControl core 0x40 w (brOp w) s

/-- BK Ks, v, off (03 R63). -/
def execBk (core : CoreId) (w : BitVec 40) (s : State) : Result := issueControl core 0x41 w (bkOp w) s

/-- BP Ps (03 R64). -/
def execBp (core : CoreId) (w : BitVec 40) (s : State) : Result := issueControl core 0x42 w (bpOp w) s

/-- REP Cs, L (03 R65). -/
def execRep (core : CoreId) (w : BitVec 40) (s : State) : Result := issueControl core 0x50 w (repOp w) s

end Sys2Proof.Machine
end

