-- ==== Sys2Proof/Machine/Sync.lean ====
section
/-! DEFINITION. Sync.lean: the sync/message slot of the main stream (10 R239-R257; 11 R258-R265, R278, R279): checks, evaluation of waits, effects, and the meanings of its commands. -/

namespace Sys2Proof.Machine

/-! ## Places on the die -/

/-- Hops between two cores (02 R31). -/
def hops (a b : CoreId) : Nat :=
  (max (coreX a) (coreX b) - min (coreX a) (coreX b)) + (max (coreY a) (coreY b) - min (coreY a) (coreY b))

/-! ## Encoding (10 R244, 11 R263) -/

/-- The field bits of each main-stream opcode, below the opcode; none: not defined. SSIG's TGT 45:40 lies in the opcode's own bits (DEDUCED, log 12). -/
def synMask : Nat → Option (BitVec 40)
  | 0x00 => some 0
  | 0x01 => some (maskOf 40 [(37, 32), (31, 24)])
  | 0x02 => some (maskOf 40 [(37, 32), (31, 24)])
  | 0x03 => some (maskOf 40 [(37, 32), (31, 24), (23, 0)])
  | 0x08 => some (maskOf 40 [(37, 32), (23, 0)])
  | 0x09 => some (maskOf 40 [(35, 32), (23, 0)])
  | 0x20 => some (maskOf 40 [(39, 26), (23, 0)])
  | 0x21 => some (maskOf 40 [(39, 30), (23, 0)])
  | 0x22 => some (maskOf 40 [(39, 26), (23, 20)])
  | 0x23 => some (maskOf 40 [(39, 24), (23, 0)])
  | _ => none

/-- N of SSIG, SREL, SWAIT. -/
def synN (w : BitVec 40) : Nat := fld w 37 32
/-- AMT. -/
def synAmt (w : BitVec 40) : Nat := fld w 31 24
/-- TMO. -/
def synTmo (w : BitVec 40) : Nat := fld w 19 0
/-- TU. -/
def synTu (w : BitVec 40) : Nat := fld w 21 20
/-- KD. -/
def synKd (w : BitVec 40) : Fin 4 := Fin.ofNat 4 (fld w 23 22)
/-- ID of CFL and CWT. -/
def synId (w : BitVec 40) : Fin 16 := Fin.ofNat 16 (fld w 35 32)
/-- Unit of TU in ns (10 R245). -/
def tuNs (tu : Nat) : Nat := match tu with | 0 => 1 | 1 => 1000 | _ => 1000000
/-- Core that SSIG's TGT names: bits 45:40 of the slot (DEDUCED, log 12). -/
def synTgt (bits : BitVec 48) : CoreId := Fin.ofNat 64 (fld bits 45 40)

/-- A sync counter's count; 0 beyond S47. -/
def SyncUnit.count (y : SyncUnit) (n : Nat) : Nat := (y.s.toList.getD n 0).toNat
/-- A sync counter's capacity. -/
def SyncUnit.capacity (y : SyncUnit) (n : Nat) : Nat := (y.cap.toList.getD n 0).toNat
/-- A sync counter set. -/
def SyncUnit.setCount (y : SyncUnit) (n v : Nat) : SyncUnit :=
  if h : n < 48 then { y with s := y.s.set n (BitVec.ofNat 8 v) } else y

/-- The capacity a signal meets at a core: 0 once it has finished (10 R254). -/
def Core.sigCap (k : Core) (n : Nat) : Nat := if k.ctl.finished then 0 else k.syn.capacity n

/-! ## Waits (10 R246, R247) -/

/-- The wait's deadline lies at or before the sampled time base; at its first issue it never does. -/
def State.past (s : State) (c : CoreId) (w : BitVec 40) : Bool :=
  synTmo w != 0 && (match (s.core c).ctl.deadline with | some d => d ≤ s.coreTb c | none => false)

/-- What an evaluation of the slot gives: the bundle waits, or it completes and writes a flag or none. -/
inductive WaitResult where
  | waits
  | done (flag : Option Bool)
  deriving DecidableEq, Repr

/-- The result of a wait on a condition (10 R247). -/
def waitOn (cond past : Bool) : WaitResult := if cond then .done (some false) else if past then .done (some true) else .waits

/-- The record of a wait's outcome in replay (12 R304): its payload. -/
def State.replayOutcome (s : State) (c : CoreId) (opc : Nat) : Option (List Byte) :=
  match s.partOf c with
  | none => none
  | some p =>
    (s.rr.region.find? (fun r => byteAt r 0 == 4 && (byteAt r 1).toNat == c.val && leNat ((r.drop 8).take 8) == (s.part p).count + 1
      && (byteAt r 16).toNat == opc)).map (fun r => r.drop 16)

/-- Whether the core's partition replays a recording. -/
def State.inReplay (s : State) (c : CoreId) : Bool := match s.partOf c with | some p => s.replaying p | none => false

/-! ## Sends (11 R259, R260, R262, R264) -/

/-- The header and payload that a send of this slot forms (11 R258, R259). -/
def State.sendOf (s : State) (c : CoreId) (w : BitVec 40) : Msg :=
  let k := s.core c
  let hp := k.ctl.p[Fin.ofNat 16 (fld w 29 26)]
  { hdr := mkHdr 1 (bit hp 41) (fld hp 40 39) (fld hp 38 27) (fld hp 26 20) s.fab.cfg.modid.toNat c.val (fld hp 19 14) (fld hp 13 0),
    payload := regLine k.vec.v[Fin.ofNat 32 (fld w 39 35)] (fld w 34 30), gen := k.mu.gen }

/-- P[HP]. -/
def State.hpOf (s : State) (c : CoreId) (w : BitVec 40) : Nat := (s.core c).ctl.p[Fin.ofNat 16 (fld w 29 26)].toNat

/-- The destination check of R260; onDie: MTXQ's, whose destination must be a core of this module (R278). -/
def State.destBad (s : State) (c : CoreId) (m : Msg) (onDie : Bool) : Bool :=
  let u := (s.core c).mu
  (64 < m.dep) || (onDie && (m.dmod != s.fab.cfg.modid.toNat || m.dep == 64)) || (m.dmod != s.fab.cfg.modid.toNat && !u.fab) ||
  (match s.ownCore m.dmod m.dep with
   | some d => !s.enabled d || (match s.partOf d with | some p => !bit u.peers p.val | none => false)
   | none => false)

/-- Free reply entries of a core. -/
def MessageUnit.replyFree (u : MessageUnit) : Nat := u.rpDepth.toNat - (u.rp.length + u.rpHeld)

/-- Request entries in use at a core, of the classes a predicate names: queued, reserved and in the running handler (11 R262). -/
def MessageUnit.reqUsed (u : MessageUnit) (f : Nat → Bool) : Nat :=
  (u.rq.filter (fun m => f m.cls.val)).length + (u.rqHeld.toList.zipIdx.foldl (fun n e => if f e.2 then n + e.1 else n) 0)
    + (match u.handler with | some h => if f h.req.cls.val then 1 else 0 | none => 0)

/-- A request entry of a class is free at a core (11 R261). -/
def MessageUnit.reqFree (u : MessageUnit) (cls : Nat) : Bool :=
  u.reqUsed (fun _ => true) < u.rqDepth.toNat &&
  (cls == 0 || u.reqUsed (fun k => k != 0) + u.c0res.toNat < u.rqDepth.toNat)

/-- Key of a module's request credit of a class (15 R359). -/
def creditKey (m : Msg) : Nat := m.dmod * 4 + m.cls.val

/-- A request credit for another module is held in direct flow mode (11 R275, 15 R359). -/
def State.creditFree (s : State) (m : Msg) : Bool :=
  m.dmod == s.fab.cfg.modid.toNat || s.fab.cfg.role = 0 || s.fab.cfg.flow != 0 || s.fab.cfg.nmod.toNat ≤ m.dmod ||
  (s.fab.reqUsed.filter (fun k => k == creditKey m)).length < 16

/-- The request entry that a send needs is free at its destination (11 R262). -/
def State.destFree (s : State) (m : Msg) : Bool :=
  match s.ownCore m.dmod m.dep with
  | some d => (s.core d).mu.reqFree m.cls.val
  | none => s.mgrFromDie[m.cls] < 256 && s.creditFree m

/-- The destination is a closed core of this module, or any destination of a partition in replay mode (11 R271, 12 R304). -/
def State.destClosed (s : State) (m : Msg) : Bool :=
  match s.ownCore m.dmod m.dep with
  | some d => s.closed d || s.inReplay d
  | none => false

/-- The cases of R264. -/
inductive SendCase where
  | accepted
  | closed
  | waiting
  | timeout
  deriving DecidableEq, Repr

/-- Which case of R264 an evaluation of MSREQ gives. -/
def State.sendCase (s : State) (c : CoreId) (w : BitVec 40) : SendCase :=
  let m := s.sendOf c w
  let u := (s.core c).mu
  if s.destClosed m then
    if 0 < u.replyFree then .closed else if s.past c w then .timeout else .waiting
  else if s.destFree m && 0 < u.replyFree then .accepted
  else if s.past c w then .timeout else .waiting

/-- Reserves a request entry at a destination (11 R262). -/
def State.holdReq (s : State) (m : Msg) : State :=
  match s.ownCore m.dmod m.dep with
  | some d => s.modMu d (fun u => { u with rqHeld := u.rqHeld.set m.cls (u.rqHeld[m.cls] + 1) })
  | none =>
    let s := { s with mgrFromDie := s.mgrFromDie.set m.cls (s.mgrFromDie[m.cls] + 1) }
    if m.dmod = s.fab.cfg.modid.toNat || s.fab.cfg.flow ≠ 0 || s.fab.cfg.nmod.toNat ≤ m.dmod then s
    else { s with fab := { s.fab with reqUsed := creditKey m :: s.fab.reqUsed } }

/-- An accepted send: both entries reserved, the request on its way (11 R262, R264). -/
def State.acceptSend (s : State) (c : CoreId) (m : Msg) : State :=
  ((s.holdReq m).modMu c (fun u => { u with rpHeld := u.rpHeld + 1 })).sendMsg m

/-! ## Message transactions (11 R278, R279) -/

/-- The staging entries that MASK names, in the order R279 acquires them: ascending destination core, then entry number. -/
def State.txParts (s : State) (c : CoreId) (mask : Nat) : List (Fin 16 × Msg) :=
  let u := (s.core c).mu
  let named := all16.filterMap (fun e => if mask / 2 ^ e.val % 2 = 1 then (u.staging[e]).map (fun m => (e, m)) else none)
  (List.range 64).flatMap (fun d => named.filter (fun x => x.2.dep == d))

/-- Acquires the entries of parts in order, stopping at the first that is not free (11 R279). -/
def State.txAcquire (s : State) (c : CoreId) : List (Fin 16 × Msg) → State
  | [] => s
  | (e, m) :: rest =>
    if (s.core c).mu.txHeld.contains e then s.txAcquire c rest
    else if s.destFree m && 0 < (s.core c).mu.replyFree then
      ((s.holdReq m).modMu c (fun u => { u with rpHeld := u.rpHeld + 1, txHeld := u.txHeld ++ [e] })).txAcquire c rest
    else s

/-- Releases every entry an MTXC holds (11 R279). -/
def State.txRelease (s : State) (c : CoreId) : State :=
  let u := (s.core c).mu
  let held := u.txHeld.filterMap (fun e => u.staging[e])
  (held.foldl (fun s m => s.releaseReq m) s).modMu c (fun u => { u with rpHeld := u.rpHeld - u.txHeld.length, txHeld := [] })

/-- A request enters the queue of core d: it fills its entry; one of this die with NR = 1 frees the sender's reply entry (11 R262). -/
def State.enterQueue (s : State) (d : CoreId) (m : Msg) : State :=
  let s := s.modMu d (fun u => { u with rqHeld := u.rqHeld.set m.cls (u.rqHeld[m.cls] - 1), rq := u.rq ++ [m] })
  if m.nr then s.freeReply m else s

/-- A part of a committed transaction enters its queue, behind the earlier requests of its sender, receiver and class (11 R272, R279). -/
def State.txDeliver (s : State) (c : CoreId) (m : Msg) : State :=
  match s.ownCore m.dmod m.dep with
  | some d =>
    let before : Msg → Bool := fun x => x.kind = 1 && s.fromDie x && x.sep = c.val && x.dmod = m.dmod && x.dep = m.dep && x.cls = m.cls
    let ahead := s.net.filter before
    let s := { s with net := s.net.filter (fun x => !before x) }
    (ahead.foldl (fun s x => s.enterQueue d x) s).enterQueue d { m with gen := (s.core c).mu.gen }
  | none => s

/-- Which case of R279 an evaluation of MTXC gives, once its entries have been acquired as far as they are free. -/
def State.txCase (s : State) (c : CoreId) (w : BitVec 40) : SendCase :=
  let parts := s.txParts c (fld w 39 24)
  if parts.any (fun x => s.destClosed x.2) then .closed
  else if parts.all (fun x => (s.core c).mu.txHeld.contains x.1) then .accepted
  else if s.past c w then .timeout else .waiting

/-! ## Checks -/

/-- The checks of KD, TU and TMO (10 R245). -/
def tmoCauses (w : BitVec 40) : List Cause :=
  if synTu w = 3 || (synTmo w = 0 && synTu w ≠ 0) then [Cause.reserved 1 436] else []

/-- The first checks of N and AMT (10 R245). -/
def amtCauses (w : BitVec 40) : List Cause :=
  (if 48 ≤ synN w then [Cause.reserved 1 448] else []) ++ (if synAmt w = 0 then [Cause.check 1 0x0D 440] else [])

/-- The checks of CFL (10 R245, R251, R253, R255); a first issue makes the arrival. -/
def State.cflCauses (s : State) (c : CoreId) (w : BitVec 40) : List Cause :=
  let k := s.core c
  let y := k.syn
  let id := synId w
  (match y.scopeOf id with
   | 0 => [Cause.reserved 1 448]
   | 2 =>
     (if bit w 37 then [Cause.reserved 1 453] else []) ++
     (if fld w 23 20 ≠ 0 then [Cause.reserved 1 (436 + lowestBit (w.extractLsb' 20 4))] else []) ++
     (if synTmo w = 0 then [Cause.check 1 0x0D 416] else [])
   | _ => tmoCauses w) ++
  (if !k.ctl.waiting && y.bar[id] == .arrived then [Cause.check 1 0x07 (48 + id.val)] else []) ++
  (if bit w 36 && y.nonZero ≠ 0 then [Cause.check 1 0x09 y.nonZero] else [])

/-- SSIG's own causes: a zero AMT, a target outside the partition, a local signal past the capacity (10 R240, R243, R245). -/
def State.ssigCauses (s : State) (c t : CoreId) (w : BitVec 40) : List Cause :=
  amtCauses w ++
  (if s.partOf t ≠ s.partOf c then [Cause.check 1 0x05 (blockBase t)]
   else if t = c && (s.core c).syn.capacity (synN w) < (s.core c).syn.count (synN w) + synAmt w then [Cause.check 1 0x07 (synN w)]
   else [])

/-- The causes to halt that the sync/message slot raises by itself, in its own order. -/
def State.synCauses (s : State) (c : CoreId) (bits : BitVec 48) : List Cause :=
  let w := bits.extractLsb' 0 40
  let k := s.core c
  let y := k.syn
  match synMask (opc48 bits) with
  | none => [Cause.opcode 1 (opc48 bits)]
  | some m =>
    reservedBits 1 416 w m ++
    match opc48 bits with
    | 0x01 => s.ssigCauses c (synTgt bits) w
    | 0x02 => amtCauses w ++ (if y.count (synN w) < synAmt w then [Cause.check 1 0x08 (synN w)] else [])
    | 0x03 => amtCauses w ++ tmoCauses w ++ (if y.capacity (synN w) < synAmt w then [Cause.check 1 0x08 (synN w)] else [])
    | 0x08 => s.cflCauses c w
    | 0x09 =>
      tmoCauses w ++
      (if y.scopeOf (synId w) = 1 then [] else [Cause.reserved 1 448]) ++
      (if y.bar[synId w] == .idle then [Cause.check 1 0x08 (48 + (synId w).val)] else [])
    | 0x20 => tmoCauses w ++ (if s.destBad c (s.sendOf c w) false then [Cause.check 1 0x05 (s.hpOf c w)] else [])
    | 0x21 => tmoCauses w
    | 0x22 => if s.destBad c (s.sendOf c w) true then [Cause.check 1 0x05 (s.hpOf c w)] else []
    | 0x23 =>
      let mask := fld w 39 24
      tmoCauses w ++
      (if all16.any (fun e => mask / 2 ^ e.val % 2 = 1 && k.mu.staging[e] == none) then [Cause.reserved 1 440] else []) ++
      (if mask = 0 then [Cause.check 1 0x0D 440] else [])
    | _ => []

/-! ## Evaluation -/

/-- Opcodes whose outcome is recorded and replayed (12 R301). -/
def replayed (opc : Nat) (w : BitVec 40) : Bool :=
  ((opc == 0x03 || opc == 0x09 || (opc == 0x08 && bit w 37)) && synTmo w != 0) || opc == 0x20 || opc == 0x21 || opc == 0x23

/-- The live evaluation of the slot in the present cycle (10 R246, R247; 11 R264, R265, R279). -/
def State.synLive (s : State) (c : CoreId) (bits : BitVec 48) : WaitResult :=
  let w := bits.extractLsb' 0 40
  let k := s.core c
  match opc48 bits with
  | 0x03 => waitOn (synAmt w ≤ k.syn.count (synN w)) (s.past c w)
  | 0x08 => if bit w 37 then waitOn (k.ctl.waiting && k.syn.bar[synId w] == .completed) (s.past c w) else .done none
  | 0x09 => waitOn (k.syn.bar[synId w] == .completed) (s.past c w)
  | 0x20 => match s.sendCase c w with
    | .accepted => .done (some false)
    | .waiting => .waits
    | _ => .done (some true)
  | 0x21 => match k.mu.rp with
    | m :: _ => .done (some (m.kind == 3))
    | [] => if s.past c w then .done (some true) else .waits
  | 0x23 => match (s.txAcquire c (s.txParts c (fld w 39 24))).txCase c w with
    | .accepted => .done (some false)
    | .waiting => .waits
    | _ => .done (some true)
  | _ => .done none

/-- The evaluation: in replay mode, recorded waits complete where and as recorded (12 R304). -/
def State.synEval (s : State) (c : CoreId) (bits : BitVec 48) : WaitResult :=
  if s.inReplay c && replayed (opc48 bits) (bits.extractLsb' 0 40) then
    match s.replayOutcome c (opc48 bits) with
    | some b => .done (some (bit (byteAt b 1) 0))
    | none => .waits
  else s.synLive c bits

/-! ## Effects -/

/-- A core's arrival at a barrier sets out for the die root (10 R251, R252); the last local one at a spanning id sets the due count of the completion (R255). -/
def State.arrive (s : State) (c : CoreId) (w : BitVec 40) : State :=
  let id := synId w
  match s.partOf c with
  | none => s
  | some p =>
    let q := s.part p
    let spanning := (s.core c).syn.scopeOf id = 2
    let coming := q.roots[id].coming ++ [(c, q.now + 4 * depth c)]
    let s := s.modSyn c (fun y => { y with bar := y.bar.set id .arrived })
    (s.modPart p (fun q' => { q' with
      roots := q'.roots.set id { q'.roots[id] with
        coming := coming,
        spanDue := if spanning then max (q.count + synTmo w) (q.count + 8) else q'.roots[id].spanDue } })).spanFill c p id

/-- A received message goes to two lines of a vector register, readable at s + 2 (11 R265). -/
def State.receive (s : State) (c : CoreId) (w : BitVec 40) (hdr : BitVec 64) (payload : Option Line) : State :=
  match s.partOf c with
  | none => s
  | some p =>
    let due := (s.part p).count + 2
    let vd : Fin 32 := Fin.ofNat 32 (fld w 39 35)
    let ln : Fin 32 := Fin.ofNat 32 (fld w 34 30)
    let pay := match payload with
      | some l => [({ due := due, dest := .line vd ln l, flags := 0, through := none, bundle := (s.core c).ctl.pc } : VPending)]
      | none => []
    s.modVec c (fun v => { v with
      pend := v.pend ++ pay ++ [{ due := due, dest := .line vd (ln + 1) (hdr.setWidth 512), flags := 0, through := none, bundle := (s.core c).ctl.pc }] })

/-- MRECV's effect: the oldest reply or NAK is taken; on a timeout the header reads as 0 (11 R265). -/
def State.mrecvOp (s : State) (c : CoreId) (w : BitVec 40) : State :=
  match (s.core c).mu.rp with
  | m :: rest =>
    let s := s.modMu c (fun u => { u with rp := rest, nakRx := if m.kind = 3 then satAdd u.nakRx 1 else u.nakRx })
    s.receive c w m.hdr (some m.payload)
  | [] => s.receive c w 0 none

/-- A NAK CLOSED given on behalf of a destination is counted there, where it is a core of this die (11 R282). -/
def State.countClosed (s : State) (m : Msg) : State :=
  match s.ownCore m.dmod m.dep with
  | some d => s.modMu d (fun u => { u with closedTx := satAdd u.closedTx 1 })
  | none => s

/-- MSREQ in each case of its evaluation: sent, answered by a NAK of a closed destination, or not complete (11 R264). -/
def State.msreqBy (s : State) (c : CoreId) (m : Msg) : SendCase → State
  | .accepted => s.acceptSend c m
  | .closed => (s.countClosed m).modMu c (fun u => { u with rp := u.rp ++ [m.nak 1] })
  | _ => s

/-- MSREQ (11 R264). -/
def State.msreqOp (s : State) (c : CoreId) (w : BitVec 40) : State := s.msreqBy c (s.sendOf c w) (s.sendCase c w)

/-- MTXQ's effect: a staging entry is written (11 R278). -/
def State.mtxqOp (s : State) (c : CoreId) (w : BitVec 40) : State :=
  s.modMu c (fun u => { u with staging := u.staging.set (Fin.ofNat 16 (fld w 23 20)) (some (s.sendOf c w)) })

/-- MTXC's effect at its completion (11 R279): every part, or none. A closed part whose reply entry is not free gets no NAK, and none is counted for it. -/
def State.mtxcOp (s : State) (c : CoreId) (w : BitVec 40) : State :=
  let parts := s.txParts c (fld w 39 24)
  match s.txCase c w with
  | .accepted =>
    (all16.foldl (fun s e => match parts.find? (fun x => x.1 == e) with | some x => s.txDeliver c x.2 | none => s) s).modMu c
      (fun u => { u with txHeld := [] })
  | .closed =>
    let s' := s.txRelease c
    let closed := (parts.filter (fun x => s.destClosed x.2)).take (s'.core c).mu.replyFree
    (closed.foldl (fun s x => s.countClosed x.2) s').modMu c (fun u => { u with rp := u.rp ++ closed.map (fun x => x.2.nak 1) })
  | _ => s.txRelease c

/-- SSIG's effect: a local count rises at once, a remote signal sets out and takes effect at s + 4h + 1 (10 R241, R244). -/
def State.ssigOp (s : State) (c t : CoreId) (w : BitVec 40) : State :=
  if t = c then s.modSyn c (fun y => y.setCount (synN w) (y.count (synN w) + synAmt w))
  else
    match s.partOf c with
    | none => s
    | some p => s.modPart p (fun q => { q with
        signals := q.signals ++ [{ target := t, n := Fin.ofNat 64 (synN w), amt := BitVec.ofNat 8 (synAmt w),
                                   at_ := q.now + 4 * hops c t + 1, sender := c, bundle := (s.core c).ctl.pc }] })

/-- The counter effect of SREL and of a completed SWAIT. -/
def State.takeCount (s : State) (c : CoreId) (w : BitVec 40) : State :=
  s.modSyn c (fun y => y.setCount (synN w) (y.count (synN w) - synAmt w))

/-- A barrier id returns to idle when a wait takes its completion (10 R251). -/
def State.takeBarrier (s : State) (c : CoreId) (w : BitVec 40) : State :=
  s.modSyn c (fun y => { y with bar := y.bar.set (synId w) .idle })

/-- The header in an MRECV's outcome: 0 where it timed out, for no message has KIND 0 (11 R258, R265). -/
def outcomeHeader (b : List Byte) : BitVec 64 := BitVec.ofNat 64 (leNat ((b.drop 8).take 8))

/-- The recorded lines of an MRECV in replay, a reply's or a NAK's (12 R304); one that timed out writes no payload (11 R265). -/
def State.replayReceive (s : State) (c : CoreId) (w : BitVec 40) (b : List Byte) : State :=
  if outcomeHeader b = 0 then s.receive c w 0 none
  else
    (s.receive c w (outcomeHeader b) (some (bytesLine ((b.drop 16).take 64)))).modMu c (fun u => { u with
      nakRx := if fld (outcomeHeader b) 63 61 = 3 then satAdd u.nakRx 1 else u.nakRx })

/-- The slot's own effect when its bundle completes, flag included where it writes one; timedOut: a wait that ends by its timeout changes no counter or barrier. -/
def State.synOp (s : State) (c : CoreId) (bits : BitVec 48) (flag : Option Bool) : State :=
  let w := bits.extractLsb' 0 40
  let timedOut := flag == some true
  match opc48 bits with
  | 0x01 => s.ssigOp c (synTgt bits) w
  | 0x02 => s.takeCount c w
  | 0x03 => if timedOut then s else s.takeCount c w
  | 0x08 => if bit w 37 then (if timedOut then s else s.takeBarrier c w) else s.arrive c w
  | 0x09 => if timedOut then s else s.takeBarrier c w
  | 0x20 => if s.inReplay c then s else s.msreqOp c w
  | 0x21 =>
    if s.inReplay c then (match s.replayOutcome c 0x21 with | some b => s.replayReceive c w b | none => s) else s.mrecvOp c w
  | 0x22 => s.mtxqOp c w
  | 0x23 => if s.inReplay c then s else (s.txAcquire c (s.txParts c (fld w 39 24))).mtxcOp c w
  | _ => s

/-- Whether a completed wait ended by its timeout rather than by an arrival, for CFG_SWAIT TMOUT (10 R257). -/
def State.endedByTimeout (s : State) (c : CoreId) (bits : BitVec 48) : Bool :=
  let w := bits.extractLsb' 0 40
  match opc48 bits with
  | 0x03 => s.synEval c bits == .done (some true)
  | 0x08 => s.synEval c bits == .done (some true)
  | 0x09 => s.synEval c bits == .done (some true)
  | 0x20 => s.sendCase c w == .timeout
  | 0x21 =>
    if s.inReplay c then (match s.replayOutcome c 0x21 with | some b => outcomeHeader b == 0 | none => false)
    else (s.core c).mu.rp.isEmpty
  | 0x23 => (s.txAcquire c (s.txParts c (fld w 39 24))).txCase c w == .timeout
  | _ => false

/-- The OUTCOME record of a completed wait (12 R301). -/
def State.noteOutcome (s : State) (c : CoreId) (bits : BitVec 48) (flag : Option Bool) : State :=
  let w := bits.extractLsb' 0 40
  match s.partOf c, flag with
  | some p, some b =>
    if replayed (opc48 bits) w then
      let lines := if opc48 bits = 0x21 then
          (match (s.core c).mu.rp with | m :: _ => leBytes 8 m.hdr.toNat ++ lineBytes m.payload | [] => List.replicate 72 0)
        else []
      s.rrNote p 4 c.val (leBytes 8 (opc48 bits + 256 * b.toNat + 4096 * (synKd w).val) ++ lines) (some ((s.part p).count + 1))
    else s
  | _, _ => s

/-- The slot completes: counters of R257, OUTCOME record, effect, flag, the wait is over (10 R246, R247). -/
def State.synDone (s : State) (c : CoreId) (bits : BitVec 48) (flag : Option Bool) : State :=
  let w := bits.extractLsb' 0 40
  let late := s.endedByTimeout c bits
  let s := (s.noteOutcome c bits flag).synOp c bits flag
  let s := if late then s.modSyn c (fun y => { y with tmout := satAdd y.tmout 1 }) else s
  s.modCtl c (fun u => { u with
    waiting := false, deadline := none, k := match flag with | some b => u.k.set (synKd w) b | none => u.k })

/-- The slot waits: at the first issue the deadline is set and CFL arrives; MTXC keeps the entries it could acquire; WCYC counts (10 R246, R247, R251; 11 R279). -/
def State.synWaits (s : State) (c : CoreId) (bits : BitVec 48) : State :=
  let w := bits.extractLsb' 0 40
  let first := !(s.core c).ctl.waiting
  let s := if opc48 bits = 0x23 && !s.inReplay c then s.txAcquire c (s.txParts c (fld w 39 24)) else s
  let s := if opc48 bits = 0x08 && first then s.arrive c w else s
  let s := s.modSyn c (fun y => { y with wcyc := y.wcyc + 1 })
  if first then
    s.modCtl c (fun u => { u with
      waiting := true
      wait := bits
      deadline := if synTmo w = 0 then none else some (s.coreTb c + BitVec.ofNat 64 (synTmo w * tuNs (synTu w))) })
  else s

/-- A sync/message-slot instruction by itself: it completes, or the core waits and issues it again (10 R246). -/
def issueSync (c : CoreId) (opc : BitVec 8) (w : BitVec 40) (s : State) : Result :=
  let bits : BitVec 48 := opc ++ w
  issueSlot c (s.synCauses c bits)
    (fun s => match s.synEval c bits with
      | .done flag => s.synDone c bits flag
      | .waits => s.synWaits c bits) s

/-! ## Meanings of the sync/message-slot commands -/

/-- SSIG (10 R244), TGT given beside the slot's low 40 bits (DEDUCED, log 12). -/
def execSsig (core tgt : CoreId) (w : BitVec 40) (s : State) : Result :=
  issueSlot core (reservedBits 1 416 w (maskOf 40 [(37, 32), (31, 24)]) ++ s.ssigCauses core tgt w)
    (fun s => (s.ssigOp core tgt w).modCtl core (fun u => { u with waiting := false, deadline := none })) s

/-- SREL (10 R244). -/
def execSrel (core : CoreId) (w : BitVec 40) (s : State) : Result := issueSync core 0x02 w s

/-- SWAIT (10 R248). -/
def execSwait (core : CoreId) (w : BitVec 40) (s : State) : Result := issueSync core 0x03 w s

/-- CFL (10 R251). -/
def execCfl (core : CoreId) (w : BitVec 40) (s : State) : Result := issueSync core 0x08 w s

/-- CWT (10 R251). -/
def execCwt (core : CoreId) (w : BitVec 40) (s : State) : Result := issueSync core 0x09 w s

/-- MSREQ (11 R264). -/
def execMsreq (core : CoreId) (w : BitVec 40) (s : State) : Result := issueSync core 0x20 w s

/-- MRECV (11 R265). -/
def execMrecv (core : CoreId) (w : BitVec 40) (s : State) : Result := issueSync core 0x21 w s

/-- MTXQ (11 R278). -/
def execMtxq (core : CoreId) (w : BitVec 40) (s : State) : Result := issueSync core 0x22 w s

/-- MTXC (11 R279). -/
def execMtxc (core : CoreId) (w : BitVec 40) (s : State) : Result := issueSync core 0x23 w s

end Sys2Proof.Machine
end

