-- ==== Sys2Proof/Machine/Hbm.lean ====
section
/-! DEFINITION. Hbm.lean: where HBM lines lie (08 R207, 01 R20), the pseudo-channel queues and their service (08 R208-R210), refresh and the safety net (08 R213-R217), and the meanings of their commands. -/

namespace Sys2Proof.Machine

/-! ## Layout (08 R207, 01 R20) -/

/-- Fitted stacks in ascending number. -/
def Grade.stacks (g : Grade) : List Nat := (List.range 6).filter g.fitted

/-- 576 MiB. -/
def pcBytes : Nat := 576 * 0x100000

/-- Bytes of one band. -/
def Grade.bandBytes (g : Grade) : Nat := g.stacks.length * pcBytes

/-- First address and length of a partition's HBM window. -/
def State.hbmWindow (s : State) (p : PartId) : Nat × Nat :=
  let r := (s.part p).pr
  (hbmBase + r.pcBase.toNat * s.grade.bandBytes, r.b.toNat * s.grade.bandBytes)

/-- The pseudo-channel, 64 * stack + index, that holds an address of a share with first band base, b bands and a granule mode. -/
def Grade.channelAt (g : Grade) (base b : Nat) (ilv : Bool) (addr : Nat) : Nat :=
  let o := addr - hbmBase - base * g.bandBytes
  let st := g.stacks
  let n := max st.length 1
  if ilv then
    let gr := o / 2048
    64 * st.getD (gr % n) 0 + (base + gr / n % max b 1)
  else
    let per := max b 1 * pcBytes
    64 * st.getD (o / per) 0 + (base + o % per / 2048 % max b 1)

/-- The partition whose share holds an HBM address. -/
def State.shareOf (s : State) (addr : Nat) : Option PartId :=
  allParts.find? (fun p => (s.part p).pr.valid && (s.hbmWindow p).1 ≤ addr && addr < (s.hbmWindow p).1 + (s.hbmWindow p).2)

/-- The pseudo-channel of an HBM address; a band of no share is laid out as a one-band share (DESIGN CHOICE, log 16). -/
def State.channel (s : State) (addr : Nat) : Nat :=
  match s.shareOf addr with
  | some p => let r := (s.part p).pr; s.grade.channelAt r.pcBase.toNat r.b.toNat r.ilv addr
  | none => s.grade.channelAt ((addr - hbmBase) / s.grade.bandBytes) 1 false addr

/-- The partition whose bands include a pseudo-channel. -/
def State.ownerOf (s : State) (ch : Nat) : Option PartId :=
  allParts.find? (fun p => let r := (s.part p).pr; r.valid && r.pcBase.toNat ≤ ch % 64 && ch % 64 < r.pcBase.toNat + r.b.toNat)

/-- Column and row where a stack's controller joins the stream network (01 R20). -/
def stackX (k : Nat) : Nat := if k < 3 then 0 else 7
/-- See stackX. -/
def stackY (k : Nat) : Nat := match k % 3 with | 0 => 1 | 1 => 4 | _ => 6

/-- The edge core region a stack joins. -/
def stackCore (k : Nat) : CoreId := Fin.ofNat 64 (8 * stackY k + stackX k)

/-- LQ from a core to a stack (01 R20). -/
def lq (c : CoreId) (k : Nat) : Nat := 4 * hops c (stackCore k) + 11

/-! ## Pseudo-channels -/

/-- A pseudo-channel's state. -/
def State.pc (s : State) (ch : Nat) : PseudoChannel :=
  match s.pcs.find? (fun e => e.1 == ch) with | some e => e.2 | none => .reset

/-- Inserts by rising key. -/
def putKey {α : Type} (k : Nat) (v : α) : List (Nat × α) → List (Nat × α)
  | [] => [(k, v)]
  | (j, x) :: l => if k < j then (k, v) :: (j, x) :: l else if k = j then (k, v) :: l else (j, x) :: putKey k v l

/-- A pseudo-channel changed; channels at their reset state are not listed. -/
def State.modPc (s : State) (ch : Nat) (f : PseudoChannel → PseudoChannel) : State :=
  let v := f (s.pc ch)
  if v = .reset then { s with pcs := s.pcs.filter (fun e => e.1 != ch) } else { s with pcs := putKey ch v s.pcs }

/-- Pseudo-channel number of a stack and index. -/
def chanOf (stack : Fin 6) (idx : Fin 64) : Nat := 64 * stack.val + idx.val

/-- A request sets out for a queue: it enters at the cycle at_ of the core's partition (08 R204). -/
def State.sendHbm (s : State) (c : CoreId) (at_ place : Nat) (ch : Nat) (r : HbmReq) : State :=
  { s with transit := s.transit ++ [{ at_ := at_, core := c, place := place, pc := ch, req := r }] }

/-- The present cycle of a core's partition. -/
def State.nowOf (s : State) (c : CoreId) : Nat := match s.partOf c with | some p => (s.part p).now | none => 0

/-- Key that orders requests entering in one cycle: core, then place (08 R208). -/
def HbmTransit.key (t : HbmTransit) : Nat := t.core.val * 2 ^ 64 + t.place

/-- The next request due to enter a queue: least by cycle order, core and place. -/
def State.nextEntry (s : State) (ch : Nat) : Option HbmTransit :=
  let due := s.transit.filter (fun t => t.pc == ch && t.at_ ≤ s.nowOf t.core)
  due.foldl (fun b t => match b with
    | none => some t
    | some x => if t.at_ < x.at_ || (t.at_ == x.at_ && t.key < x.key) then some t else b) none

/-- Scheduled refresh mode of the partition that owns a pseudo-channel, while it runs (08 R213, R214). -/
def State.scheduledRefresh (s : State) (ch : Nat) : Bool :=
  match s.ownerOf ch with
  | some p => (s.part p).pr.refm && (s.part p).live
  | none => false

/-- A safety-net refresh waits or is at work in a pseudo-channel. -/
def PseudoChannel.forcedAhead (q : PseudoChannel) : Bool :=
  q.queue.contains (.refresh true) || (match q.serving with | some (.refresh true, _) => true | _ => false)

/-- The block that a request belongs to. -/
def HbmReq.block : HbmReq → Option (CoreId × Nat)
  | .read c b _ _ => some (c, b)
  | .write c b _ _ _ => some (c, b)
  | _ => none

/-- A block is a cause of the hold at hand: a refresh that comes then is counted against it while they overlap (02 R40). -/
def Part.holdsFor (q : Part) (c : CoreId) (id : Nat) : Bool :=
  q.held && q.holds.any (fun h => h.before == q.icount.toNat && h.items.contains (.block c id))

/-- The blocks of some requests wait for a safety-net refresh (02 R40). -/
def State.delayed (s : State) (rs : List HbmReq) : State :=
  rs.foldl (fun s r => match r.block with
    | some (c, id) =>
      let q := match s.partOf c with | some p => s.part p | none => .reset
      if q.holdsFor c id then s
      else s.modStr c (fun u => { u with blocks := u.blocks.map (fun b =>
        if b.id = id && b.forced.isNone then { b with forced := some q.held } else b) })
    | none => s) s

/-- A line of a block came on time: unless another of its requests waits behind a safety-net refresh, none delays it. -/
def State.undelayed (s : State) (c : CoreId) (id : Nat) : State :=
  if s.pcs.any (fun e => e.2.forcedAhead && e.2.queue.any (fun r => r.block == some (c, id))) then s
  else s.modStr c (fun u => { u with blocks := u.blocks.map (fun b => if b.id = id then { b with forced := none } else b) })

/-- The line that a non-scheduled read of the present cycle finds: what the writes ahead of it in its queue will have left (08 R208). -/
def State.lineNow (s : State) (a : Nat) : Line :=
  let q := s.pc (s.channel a)
  let ahead := (match q.serving with | some (r, _) => [r] | none => []) ++ q.queue
  ahead.foldl (fun l r => match r with
    | .write _ _ _ b d => if b = a then d else l
    | .other b d => if b = a then d else l
    | _ => l) (s.line a)

/-- A non-scheduled read takes its turn: in HBM it enters the queue of its pseudo-channel. -/
def State.lookLine (s : State) (a : Nat) : State :=
  if hbmBase ≤ a then s.modPc (s.channel a) (fun q => { q with queue := q.queue ++ [.look a] }) else s

/-- A non-scheduled write: at once on the compute die, through its queue in HBM (04 R84, 08 R208). -/
def State.writeNow (s : State) (a : Nat) (l : Line) : State :=
  if hbmBase ≤ a then s.modPc (s.channel a) (fun q => { q with queue := q.queue ++ [.other a l] }) else s.putLine a l

/-- HBM_QUEUE_ENTRY (08 R208): the request or refresh due now enters its queue. -/
def execHbmQueueEntry (stack : Fin 6) (idx : Fin 64) (s : State) : Result :=
  let ch := chanOf stack idx
  match s.nextEntry ch with
  | none => .next s
  | some t =>
    let s := { s with transit := s.transit.erase t }
    let s := if (s.pc ch).forcedAhead then s.delayed [t.req] else s
    .next (s.modPc ch (fun q => { q with
      queue := q.queue ++ [t.req],
      lastRefresh := match t.req with | .refresh _ => s.clk.tb.toNat | _ => q.lastRefresh }))

/-- ns of the time base. -/
def State.ns (s : State) : Nat := s.clk.tb.toNat

/-- HBM_REQUEST_START (08 R209): starts lie at least 2 ns apart, a read takes its line as the requests ahead of it left it (08 R208), a refresh occupies the channel for 96 ns. -/
def execHbmRequestStart (stack : Fin 6) (idx : Fin 64) (s : State) : Result :=
  let ch := chanOf stack idx
  let q := s.pc ch
  match q.queue with
  | [] => .next s
  | r :: rest =>
    if q.serving = none && q.busyTo ≤ s.ns && (match q.lastStart with | some t => t + 2 ≤ s.ns | none => true) then
      .next (s.modPc ch (fun q =>
        let q := { q with queue := rest, lastStart := some s.ns, busyTo := s.ns + 2 }
        match r with
        | .read _ _ _ a => { q with reads := q.reads ++ [(r, s.line a)] }
        | .refresh _ => { q with serving := some (r, s.ns), busyTo := s.ns + 96 }
        | .look _ => q
        | _ => { q with serving := some (r, s.ns) }))
    else .next s

/-- A block of a core changed. -/
def State.modBlock (s : State) (c : CoreId) (id : Nat) (f : Block → Block) : State :=
  s.modStr c (fun u => { u with blocks := u.blocks.map (fun b => if b.id = id then f b else b) })

/-- A block of a core. -/
def State.blockOf (s : State) (c : CoreId) (id : Nat) : Option Block := (s.core c).str.blocks.find? (fun b => b.id == id)

/-- Late lines counted (08 R216). -/
def State.countLate (s : State) (c : CoreId) : State := s.modStr c (fun u => { u with late := u.late + 1 })

/-- Corrections and failures of one HBM read counted (17 R385). -/
def State.countHbm (s : State) (stack : Fin 6) (ecc : EccResult) : State :=
  match ecc with
  | .clean => s
  | .corrected _ => { s with hbm := s.hbm.set stack { s.hbm[stack] with ce := satAdd s.hbm[stack].ce 1 } }
  | .uncorrectable _ _ => { s with hbm := s.hbm.set stack { s.hbm[stack] with ue := satAdd s.hbm[stack].ue 1 } }

/-- HBM_WRITE_DONE (08 R209): a write finishes 2.0 ns after its start; the line holds its data, its block counts it LQ cycles later (R205). -/
def execHbmWriteDone (stack : Fin 6) (idx : Fin 64) (s : State) : Result :=
  let ch := chanOf stack idx
  match (s.pc ch).serving with
  | some (.write c blk line addr data, t) =>
    if t + 2 ≤ s.ns then
      let s := (s.modPc ch (fun q => { q with serving := none })).putLine addr data
      .next (s.modBlock c blk (fun b => { b with outs := b.outs.map (fun o =>
        if o.idx = line then { o with stage := 2, due := s.nowOf c + lq c stack.val } else o) }))
    else .next s
  | some (.other addr data, t) =>
    if t + 2 ≤ s.ns then .next ((s.modPc ch (fun q => { q with serving := none })).putLine addr data) else .next s
  | _ => .next s

/-- REFRESH_DONE (08 R209): the channel is free 96 ns after the refresh's start. -/
def execRefreshDone (stack : Fin 6) (idx : Fin 64) (s : State) : Result :=
  let ch := chanOf stack idx
  match (s.pc ch).serving with
  | some (.refresh _, t) =>
    if t + 96 ≤ s.ns then .next (s.modPc ch (fun q => { q with serving := none, refreshes := q.refreshes + 1 })) else .next s
  | _ => .next s

/-- The refresh interval of a stack in normal mode (08 R213). -/
def State.interval (s : State) (stack : Fin 6) : Nat := if s.hbm[stack].hot then 1950 else 3900

/-- NORMAL_REFRESH (08 R213): a stopped or normal-mode pseudo-channel gets a refresh at its interval, in the order the controller chose: ahead of what waits. -/
def execNormalRefresh (stack : Fin 6) (idx : Fin 64) (s : State) : Result :=
  let ch := chanOf stack idx
  if s.grade.fitted stack.val && !s.scheduledRefresh ch && (s.pc ch).lastRefresh + s.interval stack ≤ s.ns then
    .next (s.modPc ch (fun q => { q with queue := .refresh false :: q.queue, lastRefresh := s.ns }))
  else .next s

/-- SAFETY_NET_REFRESH (08 R215): a scheduled-mode pseudo-channel that reaches its deadline gets a refresh ahead of all waiting requests; while the partition issues it is a miss, and a second miss within 15,974,400 ns halts the lowest core with reason 0x14. -/
def execSafetyNetRefresh (stack : Fin 6) (idx : Fin 64) (s : State) : Result :=
  let ch := chanOf stack idx
  match s.ownerOf ch with
  | none => .next s
  | some p =>
    if s.scheduledRefresh ch && (s.pc ch).lastRefresh + 1950 ≤ s.ns then
      let miss := (s.part p).issuing
      let twice := miss && (match (s.pc ch).lastMiss with | some t => s.ns ≤ t + 15974400 | none => false)
      let s := (s.delayed (s.pc ch).queue).modPc ch (fun q => { q with
        queue := .refresh true :: q.queue, lastRefresh := s.ns, inserted := satAdd q.inserted 1,
        missed := if miss then satAdd q.missed 1 else q.missed, lastMiss := if miss then some s.ns else q.lastMiss })
      match twice, (s.coresOf p).head? with
      | true, some c => .next (s.haltCore c true 2 0x14 (s.core c).ctl.pc ch)
      | _, _ => .next s
    else .next s

/-- The pseudo-channels of a partition's share. -/
def State.shareChannels (s : State) (p : PartId) : List Nat :=
  let r := (s.part p).pr
  s.grade.stacks.flatMap (fun k => (List.range r.b.toNat).map (fun j => 64 * k + (r.pcBase.toNat + j)))

/-- Time-base ns until the release cycle chosen, at the present set point. -/
def State.untilRelease (s : State) (n t : Nat) : Nat := max ((n - s.clk.cycle.toNat) * 1000 / max 1 s.clk.setMhz) (t - s.ns)

/-- A release refresh takes a pseudo-channel, after the request in service. -/
def PseudoChannel.startRefresh (q : PseudoChannel) (ns : Nat) : PseudoChannel :=
  if q.serving = none && q.busyTo ≤ ns then { q with serving := some (.refresh false, ns), lastStart := some ns, busyTo := ns + 96, lastRefresh := ns }
  else { q with queue := .refresh false :: q.queue, lastRefresh := ns }

/-- The release refresh of a scheduled-mode partition begins once its release cycle is less than 500 ns ahead (08 R214). -/
def State.startRelease (s : State) (p : PartId) : State :=
  let q := s.part p
  match q.release with
  | some (n, t) =>
    if q.pr.refm && !q.refreshed && s.untilRelease n t < 500 then
      ((s.shareChannels p).foldl (fun s ch => s.modPc ch (fun q => q.startRefresh s.ns)) s).modPart p (fun q => { q with refreshed := true })
    else s
  | none => s

/-- A release refresh that is not over is completed. -/
def PseudoChannel.endRefresh (q : PseudoChannel) : PseudoChannel :=
  match q.serving with
  | some (.refresh _, _) => { q with serving := none, refreshes := q.refreshes + 1 }
  | _ => if q.queue.contains (.refresh false) then { q with queue := q.queue.erase (.refresh false), refreshes := q.refreshes + 1 } else q

/-- At issue count 0 the release refresh of each pseudo-channel of a scheduled partition's share is complete; the deadline of the next one runs from the release cycle's sample (08 R214). -/
def State.releaseRefresh (s : State) (p : PartId) : State :=
  if (s.part p).pr.refm then
    (s.shareChannels p).foldl (fun s ch => s.modPc ch (fun c =>
      { (if (s.part p).refreshed then c.endRefresh else { c with refreshes := c.refreshes + 1 }) with lastRefresh := s.clk.sample.toNat })) s
  else s

/-- SREF's effect (08 R214): each named pseudo-channel receives one refresh at LQ; nothing in normal mode. -/
def State.srefOp (s : State) (c : CoreId) (k : Nat) (mask : Nat) : State :=
  match s.partOf c with
  | none => s
  | some p =>
    let r := (s.part p).pr
    if !r.refm then s else
    let stack := s.grade.stacks.getD k 0
    ((List.range 64).filter (fun j => mask / 2 ^ j % 2 = 1)).foldl
      (fun s j => s.sendHbm c ((s.part p).now + lq c stack) 0 (64 * stack + r.pcBase.toNat + j) (.refresh false)) s

end Sys2Proof.Machine
end

