-- ==== Sys2Proof/Machine/Access.lean ====
section
/-! DEFINITION. Access.lean: where an address lies and who may reach it (04 R77-R79, R85), pending ranges (R91, R92), the resources an access claims in its cycle and their conflicts (02 R31, 03 R56, 04 R81, R97), and what the error check of a read counts (04 R86, R90). -/

namespace Sys2Proof.Machine

/-! ## Places and windows -/

/-- Where a device address lies, as far as a stream moves lines there (04 R77). -/
inductive Place where
  | slice (o : CoreId)
  | tile (o : CoreId) (e : EngId) (t : Fin 16) (line : Nat)
  | hbm
  | nowhere
  deriving DecidableEq, Repr

/-- The place of an address. -/
def placeOf (a : Nat) : Place :=
  match sliceOwner a with
  | some o => .slice o
  | none =>
    match aliasOf a with
    | some (o, e, t, ln) => .tile o e t ln
    | none => if hbmBase ≤ a && a < hbmEnd then .hbm else .nowhere

/-- Whether an address is HBM. -/
def isHbm (a : Nat) : Bool := placeOf a == .hbm

/-- The ranges a core's own slice permits. -/
def State.ownRanges (s : State) (c : CoreId) : List (Nat × Nat) := (s.core c).regions c

/-- The ranges a core's stream engine may reach: valid regions of the partition's slices and its HBM share (04 R79). -/
def State.streamRanges (s : State) (c : CoreId) : List (Nat × Nat) :=
  match s.partOf c with
  | none => []
  | some p => (s.coresOf p).flatMap (fun o => (s.core o).regions o) ++ [s.hbmWindow p]

/-- The first address of a span outside one of some ranges (04 R85): none when the span lies inside one. -/
def firstOutside (rs : List (Nat × Nat)) (lo len : Nat) : Option Nat :=
  match rs.find? (fun r => r.1 ≤ lo && lo < r.1 + r.2) with
  | none => some lo
  | some r => if lo + len ≤ r.1 + r.2 then none else some (r.1 + r.2)

/-- The first address of a span in a code region of the partition (03 R59). -/
def State.firstCode (s : State) (c : CoreId) (write : Bool) (lo len : Nat) : Option Nat :=
  match s.partOf c with
  | none => none
  | some p =>
    let spans := (s.coresOf p).flatMap (fun o => (s.core o).codeSpans o write)
    (spans.filter (fun r => meets lo len r.1 r.2)).foldl (fun b r => match b with
      | none => some (max lo r.1)
      | some x => some (min x (max lo r.1))) none

/-- The lesser of two addresses, where there are any. -/
def least (a b : Option Nat) : Option Nat :=
  match a, b with
  | some x, some y => some (min x y)
  | some x, none => some x
  | none, y => y

/-- The first offending address of a span: outside the ranges or, for a write, in a code region. -/
def State.firstBad (s : State) (c : CoreId) (rs : List (Nat × Nat)) (write : Bool) (lo len : Nat) : Option Nat :=
  least (firstOutside rs lo len) (if write then s.firstCode c true lo len else none)

/-- The lowest start among a core's pending ranges that a span overlaps (04 R92). -/
def StreamUnit.pendingAt (u : StreamUnit) (lo len : Nat) : Option Nat :=
  (u.board.filter (fun r => meets lo len r.lo (r.hi + 1 - r.lo))).foldl (fun b r => least b (some r.lo)) none

/-! ## Resources of one cycle (03 R56, R419) -/

/-- Read slot of a bank group of a slice. -/
def resRead (o : CoreId) (bg : Nat) : Nat := 0x500000 + 32 * o.val + bg
/-- Write slot of a bank group of a slice. -/
def resWrite (o : CoreId) (bg : Nat) : Nat := 0x600000 + 32 * o.val + bg
/-- A one-way link: the core region it leaves and its direction. -/
def resLink (c dir : Nat) : Nat := 0x700000 + 4 * c + dir
/-- The wide ports of an engine in legacy mode. -/
def resWide (c : CoreId) (e : EngId) : Nat := 0xA00000 + 4 * c.val + e.val
/-- A tile bank. -/
def resBank (c : CoreId) (e : EngId) (bank : Nat) : Nat := 0x800000 + 256 * c.val + 64 * e.val + bank

/-- Bank of a tile line (04 R94). -/
def bankOf (t line : Nat) : Nat := (line / 2 + 32 * (line % 2) + 2 * t) % 64

/-- A claim of a resource at an issue count, with the detail of a conflict. -/
structure Claim where
  cyc : Nat
  res : Nat
  tag : Nat
  detail : Nat
  deriving DecidableEq, Repr

/-- The links of a route, x first (02 R31): core region left and direction. -/
def route (a b : CoreId) : List (Nat × Nat) :=
  let ax := coreX a; let ay := coreY a; let bx := coreX b; let bY := coreY b
  (List.range (bx - ax)).map (fun i => (8 * ay + ax + i, 0)) ++ (List.range (ax - bx)).map (fun i => (8 * ay + ax - i, 1)) ++
  (List.range (bY - ay)).map (fun i => (8 * (ay + i) + bx, 2)) ++ (List.range (ay - bY)).map (fun i => (8 * (ay - i) + bx, 3))

/-- The route to a stack: to its edge region, then into its controller. -/
def routeStack (c : CoreId) (k : Nat) : List (Nat × Nat) :=
  route c (stackCore k) ++ [((stackCore k).val, if k < 3 then 1 else 0)]

/-- A traversal's claims: each link 4 c after the one before (02 R31). The lines that a block sends on one route in one cycle are one traversal, as in the example of 08 R210, and have one tag. -/
def linkClaims (rt : List (Nat × Nat)) (start tag : Nat) : List Claim :=
  rt.zipIdx.map (fun e => ⟨start + 4 * e.2, resLink e.1.1 e.1.2, tag, 7 + 256 * e.1.1 + 65536 * e.1.2⟩)

/-- A slice read's claim. -/
def readClaim (o : CoreId) (a cyc : Nat) : Claim := ⟨cyc, resRead o (bankGroup a), 0, 5 + 256 * bankGroup a⟩
/-- A slice write's claim. -/
def writeClaim (o : CoreId) (a cyc : Nat) : Claim := ⟨cyc, resWrite o (bankGroup a), 0, 6 + 256 * bankGroup a⟩
/-- A tile-bank read's claim: reads of one line share it (04 R97). -/
def bankRead (c : CoreId) (e : EngId) (t line cyc : Nat) : Claim :=
  ⟨cyc, resBank c e (bankOf t line), 256 * t + line + 1, 8 + 256 * (16 * e.val + t)⟩
/-- A tile-bank write's claim. -/
def bankWrite (c : CoreId) (e : EngId) (t line cyc : Nat) : Claim :=
  ⟨cyc, resBank c e (bankOf t line), 0, 8 + 256 * (16 * e.val + t)⟩

/-- Reads of one slice already claimed in a cycle, besides fetch. -/
def readsOf (rs : List Resv) (cyc res : Nat) : Nat :=
  (rs.filter (fun r => r.cyc == cyc && r.res / 32 == res / 32)).length

/-- The detail of the conflict a claim completes; fetches are those known in advance (04 R81). A 32nd read besides fetch exceeds the port (03 R56). -/
def clash (fetches rs : List Resv) (x : Claim) : Option Nat :=
  if (fetches ++ rs).any (fun r => r.cyc == x.cyc && r.res == x.res && !(x.tag != 0 && r.tag == x.tag)) then some x.detail
  else if x.res < 0x600000 && 31 ≤ readsOf rs x.cyc x.res then some (5 + 256 * 0xFF)
  else none

/-- Who plans some accesses: the slot and bundle behind them, and whether they go on by oscillator cycles in a hold (02 R36). -/
structure Planner where
  slot : Nat
  bundle : BitVec 48
  runs : Bool
  deriving DecidableEq, Repr

/-- A claim as the partition keeps it. -/
def Claim.keep (x : Claim) (c : CoreId) (w : Planner) : Resv :=
  { cyc := x.cyc, res := x.res, tag := x.tag, runs := w.runs, core := c, slot := w.slot, bundle := w.bundle }

/-- Claims of a core added in order; the first conflict's detail stops them. -/
def addClaims (fetches : List Resv) (c : CoreId) (w : Planner) : List Resv → List Claim → Option Nat × List Resv
  | rs, [] => (none, rs)
  | rs, x :: xs =>
    match clash fetches rs x with
    | some d => (some d, rs)
    | none => addClaims fetches c w (x.keep c w :: rs) xs

/-- Marks among the resources used in a cycle that a core has issued. -/
def resFetch (c : CoreId) : Nat := 0x900000 + c.val

/-- Whether an address lies in a core's code region (03 R57, R59), or, for the bundle at hand of a core that a commit finds waiting, in the one before the commit (13 R323). -/
def State.inCode (s : State) (c : CoreId) (a : Nat) : Bool :=
  let g := (s.core c).cfg
  (sliceBase c + g.codeBase.toNat ≤ a && a < sliceBase c + g.codeBase.toNat + g.codeLen.toNat) ||
  (match g.oldCode with | some (b, n) => decide (sliceBase c + b ≤ a && a < sliceBase c + b + n) | none => false)

/-- A sync slot that neither waits nor writes a flag: NOP, SSIG, SREL, MTXQ, CFL with W = 0. -/
def prompt (syn : BitVec 48) : Bool := opc48 syn ≤ 2 || opc48 syn = 0x22 || (opc48 syn = 8 && !bit syn 37)

/-- Whether what follows a bundle is settled by the control slots alone: no wait, no flag of the sync slot, no halt. -/
def Bundle.settled (b : Bundle) : Bool := prompt b.syn && opc48 b.ctl ≠ 1

/-- The fetch of a core's bundle. -/
def fetchOf (c : CoreId) (cyc : Nat) (a : Nat) : Resv :=
  { cyc := cyc, res := resRead c (bankGroup a), tag := 0, runs := false, core := c, slot := 0, bundle := BitVec.ofNat 48 a }

/-- The fetches of a core that its control slots settle, from an issue count on, at most n of them (04 R81, DEDUCED, log 14). -/
def State.fetchRun (s : State) (c : CoreId) : Nat → Nat → ControlUnit → List Resv
  | 0, _, _ => []
  | n + 1, cyc, u =>
    if u.finished || u.halted then []
    else if u.skipping then s.fetchRun c n (cyc + 1) (controlAfter u u 0 none)
    else if !s.inCode c u.pc.toNat then []
    else
      let b := Bundle.ofLine (s.line u.pc.toNat)
      fetchOf c cyc u.pc.toNat ::
        (if b.settled then s.fetchRun c n (cyc + 1) (controlAfter u u b.ctl none) else [])

/-- The fetches of core o that an access which core c schedules now can meet, up to the issue count last: they count as scheduled before it (04 R81). -/
def State.fetchesKnown (s : State) (q : Part) (c o : CoreId) (last : Nat) : List Resv :=
  let u := (s.core o).ctl
  let n := last - q.count
  if q.cycDone then s.fetchRun o n (q.count + 1) u
  else if o = c then
    if s.inCode c u.pc.toNat then
      let b := Bundle.ofLine (s.line u.pc.toNat)
      s.fetchRun c (if prompt b.syn then n else min n 1) (q.count + 1) (controlAfter u u b.ctl none)
    else []
  else if q.used.contains (resFetch o) then s.fetchRun o n (q.count + 1) u
  else s.fetchRun o (n + 1) q.count u

/-- The cores whose slices some claims read. -/
def readOwners (xs : List Claim) : List CoreId :=
  allCores.filter (fun o => xs.any (fun x => (x.res - 0x500000) / 32 == o.val && 0x500000 ≤ x.res && x.res < 0x600000))

/-- A resource used in the present cycle. -/
def State.take (s : State) (p : PartId) (res : Nat) : State := s.modPart p (fun q => { q with used := res :: q.used })

/-- The scheduled link traversals of the other live partitions, at a partition's own issue counts (02 R31): the network is one. -/
def State.foreignLinks (s : State) (p : PartId) : List Resv :=
  let n := (s.part p).count
  (allParts.filter (fun o => o ≠ p && (s.part o).live)).flatMap (fun o =>
    let q := s.part o
    (q.resv.filter (fun r => 0x700000 ≤ r.res && r.res < 0x800000 && q.count ≤ r.cyc)).map (fun r =>
      { r with cyc := r.cyc - q.count + n, tag := 0 }))

/-- Whether the bundle that a core has yet to fetch in the present cycle takes a read slot (03 R58). -/
def State.fetchNow (s : State) (p : PartId) (res : Nat) : Bool :=
  let q := s.part p
  !q.cycDone && !q.held && res < 0x600000 && (s.coresOf p).any (fun c =>
    let u := (s.core c).ctl
    resRead c (bankGroup u.pc.toNat) = res && !u.halted && !u.finished && !u.skipping && s.inCode c u.pc.toNat)

/-- A resource idle in the present cycle, after every scheduled access, fetch included (08 R211, 04 R84). -/
def State.idle (s : State) (p : PartId) (res : Nat) : Bool :=
  let q := s.part p
  !q.used.contains res && !q.resv.any (fun r => r.cyc == q.count && r.res == res && (r.runs || !q.held)) && !s.fetchNow p res

/-- A held cycle passes: accesses that go on in holds come one cycle nearer (02 R36). -/
def Part.holdResv (q : Part) : Part :=
  { q with
    resv := (q.resv.filter (fun r => !r.runs || q.icount.toNat < r.cyc)).map (fun r => if r.runs then { r with cyc := r.cyc - 1 } else r) }

/-- Keeps the claims of a partition that lie ahead. -/
def Part.keepResv (q : Part) : Part := { q with resv := q.resv.filter (fun r => q.icount.toNat ≤ r.cyc) }

/-! ## Error checks of reads (04 R86-R90, R102) -/

/-- Whether the scrubber marked a line (04 R89). -/
def State.poisoned (s : State) (a : Nat) : Bool :=
  match sliceOwner a with
  | some o => (s.core o).cfg.poison.contains a
  | none => false

/-- Code words of a line: two of 256 bits in weight-class storage, eight of 64 bits elsewhere (04 R86, R102). -/
def State.codeWords (s : State) (a : Nat) : Nat :=
  match sliceOwner a with
  | some o => if bit (s.core o).cfg.granule (a % 0x2000000 / 0x10000) then 2 else 8
  | none => 8

/-- What the check of a read of a line finds; a marked line has an uncorrectable word. -/
def State.found (s : State) (a : Nat) (ecc : EccResult) : EccResult :=
  if s.poisoned a then
    match ecc with
    | .uncorrectable bad fixed => .uncorrectable bad fixed
    | .corrected n => .uncorrectable 1 (n - 1)
    | .clean => .uncorrectable 1 0
  else ecc

/-- Words of a line with an uncorrectable error, and corrected words. -/
def eccCounts (words : Nat) : EccResult → Nat × Nat
  | .clean => (0, 0)
  | .corrected n => (0, min n words)
  | .uncorrectable bad fixed => (min bad words, min fixed (words - min bad words))

/-- CFG_ECC_STAT after a read of a slice or tile line: every word counts (04 R90, R102). -/
def State.countEcc (s : State) (a : Nat) (ecc : EccResult) : State :=
  let n := eccCounts (s.codeWords a) (s.found a ecc)
  match placeOf a with
  | .slice o => s.modCfg o (fun g => { g with ue := satAdd g.ue n.1, ce := satAdd g.ce n.2 })
  | .tile o _ _ _ => s.modCfg o (fun g => { g with ue := satAdd g.ue n.1, tileCe := satAdd g.tileCe n.2 })
  | _ => s

/-- A read that no schedule places, or the scrubber's, met an uncorrectable word: a record of severity 4 (04 R88, R89; 17 R393). finder: 0 scrubber, 1 non-scheduled read. -/
def State.softError (s : State) (a finder : Nat) : State :=
  match placeOf a with
  | .slice o => s.event 0x201 4 (s.partOf o) (some o) (leBytes 8 a ++ leBytes 1 finder)
  | .hbm => s.event 0x202 4 (s.shareOf a) none (leBytes 8 a)
  | _ => s

end Sys2Proof.Machine
end

