-- ==== Sys2Proof/Machine/Geometry.lean ====
section
/-! DEFINITION. Geometry.lean: the fields of descriptors (08 R196-R199, 09 R225, R228, R229) and, for each kind of block, its source and destination lines, which source lines a destination line needs, when it is released and what it holds (08 R198-R204; 09 R220-R228; 06 R159-R161). -/

namespace Sys2Proof.Machine

/-! ## Fields -/

/-- KIND. -/
def dKind (d : BitVec 256) : Nat := fld d 63 60
/-- XF of a COPY. -/
def dXf (d : BitVec 256) : Nat := fld d 55 52
/-- RATE field. -/
def dRate (d : BitVec 256) : Nat := fld d 59 57
/-- DUE of a descriptor. -/
def dDue (d : BitVec 256) : Nat := fld d 47 24
/-- LEN. -/
def dLen (d : BitVec 256) : Nat := fld d 23 0
/-- GAP. -/
def dGap (d : BitVec 256) : Nat := fld d 127 112
/-- SRC. -/
def dSrc (d : BitVec 256) : Nat := fld d 111 64
/-- DST. -/
def dDst (d : BitVec 256) : Nat := fld d 175 128
/-- ROWS, and ELEN of an indexed block. -/
def dRows (d : BitVec 256) : Nat := fld d 191 176
/-- RLAT. -/
def dRlat (d : BitVec 256) : Nat := fld d 255 240
/-- SSTR, and TBLN of an indexed block. -/
def dSstr (d : BitVec 256) : Nat := fld d 239 216
/-- DSTR. -/
def dDstr (d : BitVec 256) : Nat := fld d 215 192
/-- NIDX of an indexed block. -/
def dNidx (d : BitVec 256) : Nat := fld d 11 0

/-- Lines per cycle: n of RATE (08 R198). -/
def lineRate (d : BitVec 256) : Nat := 2 ^ dRate d

/-- Element width of a transposing COPY: 1, 2 or 4 bytes. -/
def trWidth (xf : Nat) : Nat := 2 ^ (xf - 1)

/-- The fields of a window's XPAR (09 R225): KH, KW, SH, SW, DH, DW, PT, PL, OW, H, W. -/
structure Window where
  kh : Nat
  kw : Nat
  sh : Nat
  sw : Nat
  dh : Nat
  dw : Nat
  pt : Nat
  pl : Nat
  ow : Nat
  h : Nat
  w : Nat

/-- The window an XPAR describes. -/
def windowOf (x : BitVec 256) : Window :=
  { kh := fld x 59 56, kw := fld x 55 52, sh := fld x 51 48, sw := fld x 47 44, dh := fld x 43 40, dw := fld x 39 36,
    pt := fld x 35 32, pl := fld x 31 28, ow := fld x 79 64, h := fld x 95 80, w := fld x 111 96 }

/-- Element bytes of an MXS block: 16 or 32. -/
def mxsBytes (x : BitVec 256) : Nat := if bit x 59 then 32 else 16

/-! ## Transposition of 64 B lines -/

/-- A line of U elements of w bytes: element e is element col of a row whose line is given for e. -/
def gatherLine (w : Nat) (f : Nat → List Byte) : Line :=
  bytesLine ((List.range (64 / w)).flatMap (fun e => ((f e) ++ List.replicate w 0).take w))

/-- Bytes w*i .. w*i + w - 1 of a line. -/
def elemBytes (l : Line) (w i : Nat) : List Byte := ((lineBytes l).drop (w * i)).take w

/-! ## Source lines -/

/-- Source row and line in the row. -/
def rowOf (len i : Nat) : Nat × Nat := (i / max len 1, i % max len 1)

/-- Address of a plain source line (08 R198). -/
def copySrc (d : BitVec 256) (i : Nat) : Nat :=
  let r := rowOf (dLen d) i
  dSrc d + 64 * (r.1 * dSstr d + r.2)

/-- Memory line of a tile block: line L of a tile of a shape (04 R95, R100). -/
def tileMem (d : BitVec 256) (shape ln : Nat) : Nat :=
  dSrc d + 64 * (ln / rowLines shape * dSstr d + ln % rowLines shape)

/-- Tile line i of a transposing move in quadrant order (09 R224). -/
def quadTile (i : Nat) : Nat :=
  let q := i / 64
  2 * (64 * (q / 2) + i % 64) + q % 2

/-- Memory line i of a transposing move in quadrant order: column c = h*U + j/w, line w*(q/2) + j mod w (09 R223, R224). -/
def quadMem (d : BitVec 256) (w i : Nat) : Nat :=
  let q := i / 64
  let j := i % 64
  dSrc d + 64 * ((q % 2 * (64 / w) + j / w) * dSstr d + w * (q / 2) + j % w)

/-- The window position of destination line i: its pixel, when it lies inside, and its line (09 R226). -/
def winSrc (d x : BitVec 256) (i : Nat) : Option Nat :=
  let k := windowOf x
  let len := dLen d
  let per := k.kh * k.kw * len
  let r := i / max per 1
  let m := i % max per 1
  let tap := m / max len 1
  let y : Int := ((r / max k.ow 1 * k.sh + tap / max k.kw 1 * k.dh : Nat) : Int) - k.pt
  let xx : Int := ((r % max k.ow 1 * k.sw + tap % max k.kw 1 * k.dw : Nat) : Int) - k.pl
  if 0 ≤ y && y < k.h && 0 ≤ xx && xx < k.w then
    some (dSrc d + 64 * (y.toNat * dSstr d + xx.toNat * len + m % max len 1))
  else none

/-- How many source lines a block has. -/
def Block.srcCount (b : Block) : Nat :=
  match b.kind with
  | .copy xf =>
    if xf = 4 then (let k := windowOf b.xpar; dRows b.desc * (k.kh * k.kw * dLen b.desc)) else dRows b.desc * dLen b.desc
  | .tile .. => 256
  | .sttx .. => 256
  | _ => 0

/-- Address of source line i; none: a padding line (08 R204, 09 R227). -/
def Block.srcAt (b : Block) (c : CoreId) (i : Nat) : Option Nat :=
  match b.kind with
  | .copy xf => if xf = 4 then winSrc b.desc b.xpar i else some (copySrc b.desc i)
  | .tile store e t sh => some (if store then tileAlias c e t.val i else tileMem b.desc sh.toNat i)
  | .sttx store e t w => some (if store then tileAlias c e t.val (quadTile i) else quadMem b.desc w i)
  | _ => none

/-! ## Destination lines -/

/-- Source lines of one group of a block whose destination lines need more than one source line: MXS 17 or 33 lines, stochastic codes up to 512 lines of a row, BF16 two, transposition 256, transposing moves 64. -/
structure Group where
  first : Nat
  len : Nat

/-- Code lines and scale lines of a stochastic code row of LEN source lines: 128 code lines then a scale line for each 512 source lines (08 R202). -/
def codeRowLines (len : Nat) : Nat := len / 4 + (len + 511) / 512

/-- Row, chunk, and line of the chunk for destination line j of a stochastic code block; each chunk has up to 128 code lines, then its scale line. -/
def codePos (len j : Nat) : Nat × Nat × Nat :=
  let per := codeRowLines len
  let m := j % max per 1
  (j / max per 1, m / 129, m % 129)

/-- Code lines of chunk k of a row. -/
def chunkCodes (len k : Nat) : Nat := min 128 (len / 4 - 128 * k)

/-- How many destination lines a block has. -/
def Block.dstCount (b : Block) : Nat :=
  match b.kind with
  | .copy xf =>
    let len := dLen b.desc
    match xf.toNat with
    | 5 => let e := mxsBytes b.xpar; dRows b.desc * len / (e + 1) * (e + 1)
    | 8 => dRows b.desc * (len / 2)
    | 9 => dRows b.desc * codeRowLines len
    | 10 => dRows b.desc * codeRowLines len
    | _ => b.srcCount
  | _ => b.srcCount

/-- Address of destination line j. -/
def Block.dstAt (b : Block) (c : CoreId) (j : Nat) : Nat :=
  let d := b.desc
  match b.kind with
  | .copy xf =>
    let at_ := fun (r k : Nat) => dDst d + 64 * (r * dDstr d + k)
    let len := dLen d
    match xf.toNat with
    | 4 =>
      let k := windowOf b.xpar
      let p := rowOf (k.kh * k.kw * len) j
      at_ p.1 p.2
    | 5 =>
      let e := mxsBytes b.xpar
      let g := j / (e + 1)
      let m := j % (e + 1)
      let per := len / (e + 1)
      if m = e then fld b.xpar 47 0 + 64 * g else at_ (g / max per 1) (g % max per 1 * e + m)
    | 8 => let p := rowOf (len / 2) j; at_ p.1 p.2
    | 9 =>
      let p := codePos len j
      if p.2.2 < chunkCodes len p.2.1 then at_ p.1 (128 * p.2.1 + p.2.2) else at_ p.1 (len / 4 + p.2.1)
    | 10 =>
      let p := codePos len j
      if p.2.2 < chunkCodes len p.2.1 then at_ p.1 (128 * p.2.1 + p.2.2) else at_ p.1 (len / 4 + p.2.1)
    | 0 => let p := rowOf len j; at_ p.1 p.2
    | x =>
      let w := trWidth x
      let t := j / 256
      let m := j % 256
      dDst d + 64 * (m / (2 * w) * dDstr d + 2 * w * t + m % (2 * w))
  | .tile store e t sh => if store then tileMem d sh.toNat j else tileAlias c e t.val j
  | .sttx store e t w => if store then quadMem d w j else tileAlias c e t.val (quadTile j)
  | _ => 0

/-- The source lines that destination line j needs: first and count. -/
def Block.needs (b : Block) (j : Nat) : Nat × Nat :=
  match b.kind with
  | .copy xf =>
    let len := dLen b.desc
    match xf.toNat with
    | 5 =>
      let e := mxsBytes b.xpar
      let g := j / (e + 1)
      let m := j % (e + 1)
      let bl := 64 / e
      if m = e then (g * (e + 1), e + 1)
      else
        let lo := m * bl * (e + 1) / 64
        let hi := ((m + 1) * bl * (e + 1) - 1) / 64
        (g * (e + 1) + lo, hi + 1 - lo)
    | 8 => (2 * j, 2)
    | 9 =>
      let p := codePos len j
      if p.2.2 < chunkCodes len p.2.1 then (p.1 * len + 512 * p.2.1 + p.2.2 / 2 * 8, 8)
      else (p.1 * len + 512 * p.2.1, 4 * chunkCodes len p.2.1)
    | 10 =>
      let p := codePos len j
      if p.2.2 < chunkCodes len p.2.1 then (p.1 * len + 512 * p.2.1 + p.2.2 / 2 * 8, 8)
      else (p.1 * len + 512 * p.2.1, 4 * chunkCodes len p.2.1)
    | 0 => (j, 1)
    | 4 => (j, 1)
    | _ => (j / 256 * 256, 256)
  | .sttx .. => (j / 64 * 64, 64)
  | _ => (j, 1)

/-- Cycles from the arrival of the last line needed to the release of destination line j (09 R222, R224, R228); a line is written, or sent, 1 c after its release. -/
def Block.lagOf (b : Block) (j : Nat) : Nat :=
  let n := lineRate b.desc
  match b.kind with
  | .copy xf =>
    match xf.toNat with
    | 1 => 1 + j % 256 / n
    | 2 => 1 + j % 256 / n
    | 3 => 1 + j % 256 / n
    | 5 => 1
    | _ => 0
  | .sttx .. => j % 64 / n
  | _ => 0

/-- FP32 words of a line. -/
def lineWords (l : Line) : List Nat := (List.range 16).map (fun i => (l.extractLsb' (32 * i) 32).toNat)

/-- A group of 128 FP32 values quantised stochastically: scale byte and codes; first: its first element's number (06 R159-R161). -/
def srGroup (f : Elem) (seed : BitVec 32) (first : Nat) (vs : List Nat) : Nat × List Nat :=
  let e := chooseScale f vs
  (e, vs.zipIdx.map (fun x => srCode f x.1 e (srDraw seed (first + x.2))))

/-- What destination line j holds, from the source lines in staging. The elements of a stochastic COPY are numbered row by row in source order, which is ascending destination address wherever rows do not overlap (06 R160; DEDUCED where they do, log 87). -/
def Block.dataOf (b : Block) (get : Nat → Line) (j : Nat) : Line :=
  match b.kind with
  | .copy xf =>
    let len := dLen b.desc
    let codes := fun (f : Elem) =>
      let p := codePos len j
      let base := p.1 * len + 512 * p.2.1
      let group := fun (g : Nat) =>
        srGroup f b.seed (b.elem0 + (base + 8 * g) * 16) ((List.range 8).flatMap (fun i => lineWords (get (base + 8 * g + i))))
      let n := chunkCodes len p.2.1
      if p.2.2 < n then
        bytesLine ((((group (p.2.2 / 2)).2.drop (64 * (p.2.2 % 2))).take 64).map (BitVec.ofNat 8))
      else bytesLine ((List.range (n / 2)).map (fun g => BitVec.ofNat 8 (group g).1))
    match xf.toNat with
    | 5 =>
      let e := mxsBytes b.xpar
      let g := j / (e + 1)
      let m := j % (e + 1)
      let byte := fun (o : Nat) => byteAt (lineBytes (get (g * (e + 1) + o / 64))) (o % 64)
      if m = e then bytesLine ((List.range 64).map (fun k => byte (k * (e + 1))))
      else bytesLine ((List.range 64).map (fun i => byte ((m * (64 / e) + i / e) * (e + 1) + 1 + i % e)))
    | 8 =>
      bytesLine ((lineWords (get (2 * j)) ++ lineWords (get (2 * j + 1))).zipIdx.flatMap (fun x =>
        leBytes 2 (srBf16 x.1 (srDraw b.seed (b.elem0 + 32 * j + x.2)))))
    | 9 => codes .i8
    | 10 => codes .e4m3
    | 0 => get j
    | 4 => get j
    | x =>
      let w := trWidth x
      let t := j / 256
      let c := j % 256 / (2 * w)
      let l := j % (2 * w)
      gatherLine w (fun e => elemBytes (get (256 * t + 2 * (l * (64 / w) + e) + c / (64 / w))) w (c % (64 / w)))
  | .sttx store _ _ w =>
    let q := j / 64
    let m := j % 64
    let u := 64 / w
    if store then
      -- memory column q%2*U + m/w, line m%w of the quadrant: rows (m%w)*U + e of the quadrant
      gatherLine w (fun e => elemBytes (get (64 * q + m % w * u + e)) w (m / w))
    else
      -- tile row m of the quadrant: element e of it lies in memory column e, element m of that column's quadrant lines
      gatherLine w (fun e => elemBytes (get (64 * q + e * w + m / u)) w (m % u))
  | _ => get j

/-- Bytes of a destination row of a COPY, for its span (08 R198, R202; 09 R220, R226, R228). -/
def Block.dstSpan (b : Block) : Nat × Nat :=
  let d := b.desc
  let strided := fun (rows bytes : Nat) => (dDst d, 64 * (rows - 1) * dDstr d + bytes)
  match b.kind with
  | .copy xf =>
    let len := dLen d
    match xf.toNat with
    | 0 => strided (dRows d) (64 * len)
    | 4 => let k := windowOf b.xpar; strided (dRows d) (64 * (k.kh * k.kw * len))
    | 5 => let e := mxsBytes b.xpar; strided (dRows d) (64 * (e * len / (e + 1)))
    | 8 => strided (dRows d) (32 * len)
    | 9 => strided (dRows d) (64 * codeRowLines len)
    | 10 => strided (dRows d) (64 * codeRowLines len)
    | x => let w := trWidth x; strided (128 / w) (w * dRows d)
  | _ => (0, 0)

end Sys2Proof.Machine
end

