-- ==== Sys2Proof/Machine/Tiles.lean ====
section
/-! DEFINITION. Tiles.lean: which tile lines a matrix engine reads, and when (05 R108-R116, R125-R128): opcodes, fields, operand streams, the first read cycle; its bank reads ahead, past the reuse latches (04 R97, R98). -/

namespace Sys2Proof.Machine

/-! ## Opcodes (R112) -/

/-- Format of an array operand. -/
inductive ArrFmt where
  | el (f : Elem)
  | bf
  | half
  | single
  deriving DecidableEq, Repr

/-- What an MMA-family opcode computes. -/
inductive MmaKind where
  | dense
  | complex
  | sparse4
  | sparse2
  deriving DecidableEq, Repr

/-- An MMA-family opcode: its kind, port mode, formats of A and B. -/
structure MmaForm where
  kind : MmaKind
  legacy : Bool
  fa : ArrFmt
  fb : ArrFmt
  deriving DecidableEq, Repr

/-- Formats by an opcode's low nibble. -/
def nibbleFmts : Nat → ArrFmt × ArrFmt
  | 0 => (.el .i8, .el .i8)
  | 1 => (.el .i8, .el .i4)
  | 2 => (.el .i4, .el .i8)
  | 3 => (.el .i4, .el .i4)
  | 4 => (.el .e4m3, .el .e4m3)
  | 5 => (.el .e4m3, .el .e5m2)
  | 6 => (.el .e5m2, .el .e4m3)
  | 7 => (.el .e5m2, .el .e5m2)
  | 8 => (.el .e4m3, .el .fp4)
  | 9 => (.el .fp4, .el .e4m3)
  | 10 => (.el .e5m2, .el .fp4)
  | 11 => (.el .fp4, .el .e5m2)
  | 12 => (.el .fp4, .el .fp4)
  | 13 => (.bf, .bf)
  | 14 => (.half, .half)
  | _ => (.single, .single)

/-- Format of a complex opcode's low nibble. -/
def complexFmt : Nat → ArrFmt
  | 0 => .el .i8
  | 1 => .el .e4m3
  | _ => .el .e5m2

/-- The MMA-family instruction of an opcode; none: another opcode. -/
def mmaForm (opc : Nat) : Option MmaForm :=
  let f := nibbleFmts (opc % 16)
  match opc / 16, opc % 16 with
  | 0x1, _ => some ⟨.dense, false, f.1, f.2⟩
  | 0x2, n => if n ≤ 2 then some ⟨.complex, false, complexFmt n, complexFmt n⟩ else none
  | 0x3, n => if n ≤ 12 then some ⟨.sparse4, false, f.1, f.2⟩ else none
  | 0x5, n => if n ≤ 12 then some ⟨.sparse2, false, f.1, f.2⟩ else none
  | 0x9, _ => some ⟨.dense, true, f.1, f.2⟩
  | 0xA, n => if n ≤ 2 then some ⟨.complex, true, complexFmt n, complexFmt n⟩ else none
  | _, _ => none

/-- A 4-bit format. -/
def ArrFmt.four : ArrFmt → Bool
  | .el f => f.bits == 4
  | _ => false

/-- BF16, FP16 and FP32. -/
def ArrFmt.wide : ArrFmt → Bool
  | .el _ => false
  | _ => true

/-- Integer codes. -/
def ArrFmt.isInt : ArrFmt → Bool
  | .el f => f.isInt
  | _ => false

/-- Bytes per element per k-step, or per k-pair of a 4-bit format (R109). -/
def ArrFmt.bytes : ArrFmt → Nat
  | .el _ => 1
  | .bf => 2
  | .half => 2
  | .single => 4

/-- Complex operation. -/
def MmaForm.isComplex (x : MmaForm) : Bool := x.kind == .complex
/-- Sparse operation. -/
def MmaForm.isSparse (x : MmaForm) : Bool := x.kind == .sparse4 || x.kind == .sparse2
/-- Both operands 4-bit: the split multiplier. -/
def MmaForm.split (x : MmaForm) : Bool := x.fa.four && x.fb.four
/-- One 4-bit operand. -/
def MmaForm.mixed (x : MmaForm) : Bool := x.fa.four != x.fb.four
/-- k-steps per k-cycle (R110). -/
def MmaForm.s (x : MmaForm) : Nat := if x.split then 2 else 1
/-- q of R113. -/
def MmaForm.q (x : MmaForm) : Nat :=
  match x.kind with
  | .sparse4 => 2
  | .sparse2 => 4
  | _ => 1
/-- Passes (R123-R125). -/
def MmaForm.passes (x : MmaForm) : Nat :=
  if x.isComplex then 4
  else match x.fa with
    | .half => 4
    | .single => 9
    | _ => 1
/-- Stored values of a column in a block of 8 k-steps (R126). -/
def MmaForm.keep (x : MmaForm) : Nat := if x.kind == .sparse4 then 4 else 2
/-- k-cycles of a block (R128). -/
def MmaForm.perBlock (x : MmaForm) : Nat := x.keep / x.s

/-! ## Fields (R113) -/

/-- TA. -/
def mTa (w : BitVec 56) : Nat := fld w 55 52
/-- TB. -/
def mTb (w : BitVec 56) : Nat := fld w 51 48
/-- TS. -/
def mTs (w : BitVec 56) : Nat := fld w 47 44
/-- LA. -/
def mLa (w : BitVec 56) : Nat := fld w 43 36
/-- LB. -/
def mLb (w : BitVec 56) : Nat := fld w 35 28
/-- LS. -/
def mLs (w : BitVec 56) : Nat := fld w 27 20
/-- KCY. -/
def mKcy (w : BitVec 56) : Nat := fld w 19 12
/-- SHP. -/
def mShp (w : BitVec 56) : Nat := fld w 11 10
/-- GS. -/
def mGs (w : BitVec 56) : Nat := fld w 9 8
/-- ACS. -/
def mAcs (w : BitVec 56) : Bool := bit w 7
/-- ACCUM. -/
def mAccum (w : BitVec 56) : Bool := bit w 6
/-- PEN. -/
def mPen (w : BitVec 56) : Bool := bit w 5

/-- M of an instruction shape (R108). -/
def shpM : Nat → Nat
  | 0 => 128
  | 1 => 64
  | 2 => 256
  | _ => 32
/-- N of an instruction shape. -/
def shpN : Nat → Nat
  | 0 => 128
  | 1 => 256
  | 2 => 64
  | _ => 512

/-- Scales are read: GS names a group. -/
def mScaled (x : MmaForm) (w : BitVec 56) : Bool := mGs w != 0 && !x.fa.wide && !x.legacy

/-- Group size in k-steps; 0 for operations that add every product (R115, R119). -/
def mGroup (x : MmaForm) (w : BitVec 56) : Nat :=
  if mScaled x w then 16 * 2 ^ mGs w else if x.fa.wide || x.fa.isInt then 0 else 32

/-- Tile of A's scales. -/
def mScaleTile (x : MmaForm) (w : BitVec 56) : Nat := if x.isSparse then mTs w + 1 else mTs w

/-- Reduction length per pass (R113). -/
def mK (x : MmaForm) (w : BitVec 56) : Nat := mKcy w * x.s * x.q

/-- Blocks of 8 k-steps that a sparse operation begins. -/
def mBlocks (x : MmaForm) (w : BitVec 56) : Nat := (mK x w + 7) / 8

/-! ## Operand streams (R109, R110) -/

/-- An operand stream: first tile and line, elements of a k-step, whether a k-pair serves two k-cycles, bytes of a k-cycle or pair, bytes of a row. -/
structure OpStream where
  tile : Nat
  line : Nat
  len : Nat
  pair : Bool
  need : Nat
  row : Nat
  deriving DecidableEq, Repr

/-- Bytes of a row of a tile. -/
def CoreConfig.rowBytes (g : CoreConfig) (e : EngId) (t : Nat) : Nat := 64 * rowLines (g.shape e (Fin.ofNat 16 t))

/-- The A stream. -/
def streamA (g : CoreConfig) (e : EngId) (x : MmaForm) (w : BitVec 56) : OpStream :=
  let l := shpM (mShp w)
  { tile := mTa w, line := mLa w, len := l, pair := x.fa.four && !x.fb.four, need := l * x.fa.bytes, row := g.rowBytes e (mTa w) }

/-- The B stream. -/
def streamB (g : CoreConfig) (e : EngId) (x : MmaForm) (w : BitVec 56) : OpStream :=
  let l := shpN (mShp w)
  { tile := mTb w, line := mLb w, len := l, pair := x.fb.four && !x.fa.four, need := l * x.fb.bytes, row := g.rowBytes e (mTb w) }

/-- Rows per cycle that an operand needs for one row per cycle. -/
def OpStream.rate (o : OpStream) : Nat := if o.pair then o.need / (2 * o.row) else o.need / o.row

/-- The read factor f (R110). -/
def readFactor (g : CoreConfig) (e : EngId) (x : MmaForm) (w : BitVec 56) : Nat :=
  if x.isSparse then 1 else max 1 (max (streamA g e x w).rate (streamB g e x w).rate)

/-- Cycles that an operation occupies the array (R110). -/
def busyCycles (f : Nat) (x : MmaForm) (w : BitVec 56) : Nat := x.passes * mKcy w * f

/-- Bytes of a stream. -/
def OpStream.bytes (o : OpStream) (kcy : Nat) : Nat := if o.pair then (kcy + 1) / 2 * o.need else kcy * o.need

/-- Position of k-cycle cc of a pass in its stream, from byte 0 of the first tile. -/
def OpStream.pos (o : OpStream) (cc : Nat) : Nat := 64 * o.line + (if o.pair then cc / 2 else cc) * o.need

/-- The k-cycle under which a k-cycle's operand is kept: a pair spread over both its k-cycles is kept once. -/
def OpStream.key (o : OpStream) (f c : Nat) : Nat := if o.pair && f < o.need / o.row then c / 2 * 2 else c

/-- Imaginary part of A in a pass (R125). -/
def imagA (x : MmaForm) (pass : Nat) : Nat := if x.isComplex && pass % 2 = 1 then 1 else 0
/-- Imaginary part of B in a pass. -/
def imagB (x : MmaForm) (pass : Nat) : Nat := if x.isComplex && (pass = 1 || pass = 2) then 1 else 0

/-- A read of tile bytes: 0 A, 1 B, 2 A scales, 3 B scales, 4 metadata; the k-cycle it is kept under; its place in what is kept; first byte, from byte 0 of T0; length; lines of the row read. -/
structure TileRead where
  kind : Nat
  key : Nat
  off : Nat
  pos : Nat
  len : Nat
  first : Nat
  lines : Nat
  deriving DecidableEq, Repr

/-- A read of a whole row, of which len bytes from pos are used. -/
def rowRead (kind key off tile pos len row : Nat) : TileRead :=
  let a := 16384 * tile + pos
  { kind := kind, key := key, off := off, pos := a, len := len, first := a / row * row / 64, lines := row / 64 }

/-- A read of the lines of a scale or metadata span. -/
def spanRead (kind key tile pos len : Nat) : TileRead :=
  let a := 16384 * tile + pos
  { kind := kind, key := key, off := 0, pos := a, len := len, first := a / 64, lines := (a + len - 1) / 64 - a / 64 + 1 }

/-- The rows of one operand read in cycle y of an operation. An operand that needs fewer rows than f reads them in the first of the f cycles; a k-pair that fits in f rows is read again for its second k-cycle (DEDUCED, log 84). -/
def OpStream.reads (o : OpStream) (kind f kcy imag y : Nat) : List TileRead :=
  let c := y / f
  let cc := c % kcy
  let rows := max 1 (o.need / o.row)
  let j := if o.pair && f < rows then cc % 2 * f + y % f else y % f
  if j < rows then [rowRead kind (o.key f c) (j * o.row) (o.tile + imag) (o.pos cc + j * o.row) (min o.need o.row) o.row] else []

/-- The A rows of a sparse operation in cycle y (R128). Where KCY ends inside a block, the rows of that block not yet read count as 0 (DEDUCED, log 84). -/
def sparseReads (x : MmaForm) (w : BitVec 56) (y : Nat) : List TileRead :=
  let n := x.perBlock
  let rows := if x.fa.four then 4 else 8
  let b := y / n
  (List.range (rows / n)).map (fun i =>
    let r := y % n * (rows / n) + i
    rowRead 0 (b * n) (128 * r) (mTa w) (64 * mLa w + (b * rows + r) * 128) 128 128)

/-- Everything an operation reads in its cycle y: A, B, scales at the first k-cycle of a group, metadata at the first of a block (R116); both in the first cycle of that k-cycle (DEDUCED, log 84). -/
def tileReads (g : CoreConfig) (e : EngId) (x : MmaForm) (w : BitVec 56) (f y : Nat) : List TileRead :=
  let kcy := mKcy w
  let c := y / f
  let cc := c % kcy
  let pass := c / kcy
  let k0 := cc * x.s * x.q
  let grp := mGroup x w
  let t := mScaleTile x w
  (if x.isSparse then sparseReads x w y else (streamA g e x w).reads 0 f kcy (imagA x pass) y) ++
  (streamB g e x w).reads 1 f kcy (imagB x pass) y ++
  (if mScaled x w && y % f == 0 && k0 % grp == 0 then
    [spanRead 2 c t (64 * mLs w + k0 / grp * shpM (mShp w)) (shpM (mShp w)),
     spanRead 3 c (t + 1) (64 * mLs w + k0 / grp * shpN (mShp w)) (shpN (mShp w))]
   else []) ++
  (if x.isSparse && y % x.perBlock == 0 then [spanRead 4 y (mTs w) (64 * mLs w + 128 * (y / x.perBlock)) 128] else [])

/-- The spans an instruction reads, in the order of check 7 of R114: stream kind, first tile, first byte in it, bytes. -/
def mmaSpans (g : CoreConfig) (e : EngId) (x : MmaForm) (w : BitVec 56) : List (Nat × Nat × Nat × Nat) :=
  let a := streamA g e x w
  let b := streamB g e x w
  let kcy := mKcy w
  let na := if x.isSparse then mBlocks x w * (if x.fa.four then 4 else 8) * 128 else a.bytes kcy
  let t := mScaleTile x w
  let groups := if mGroup x w = 0 then 0 else mK x w / mGroup x w
  [(0, a.tile, 64 * a.line, na)] ++ (if x.isComplex then [(0, a.tile + 1, 64 * a.line, na)] else []) ++
  [(1, b.tile, 64 * b.line, b.bytes kcy)] ++ (if x.isComplex then [(1, b.tile + 1, 64 * b.line, b.bytes kcy)] else []) ++
  (if mScaled x w then [(2, t, 64 * mLs w, groups * shpM (mShp w)), (3, t + 1, 64 * mLs w, groups * shpN (mShp w))]
   else if x.isSparse then [(2, t, 0, 0), (3, t + 1, 0, 0)] else []) ++
  (if x.isSparse then [(4, mTs w, 64 * mLs w, 128 * mBlocks x w)] else [])

/-! ## Timing (R116, R141) -/

/-- First read cycle of an operation issued in cycle s. -/
def firstRead (legacy : Bool) (s : Nat) : Nat := if legacy then s + 3 + (2 + 4 - (s + 3) % 4) % 4 else s + 1

/-- The operation's form; a stored operation always has one. -/
def MmaOp.form (o : MmaOp) : MmaForm := (mmaForm o.opc.toNat).getD ⟨.dense, false, .bf, .bf⟩

/-- Its busy cycles. -/
def MmaOp.t (o : MmaOp) : Nat := busyCycles o.f o.form o.w

/-- First and last write of an accumulator (R116, R117). -/
def writeWindow (x : MmaForm) (w : BitVec 56) (p f : Nat) (acc : Bool) : Option (Nat × Nat) :=
  let t := busyCycles f x w
  if t = 0 then none
  else if x.isComplex then
    (if acc then some (p + t / 2 + f + 5, p + t + 5) else some (p + f + 5, p + t / 2 + 5))
  else if mAcs w = acc then some (p + f + 5, p + t + 5) else none

/-- Whether two windows meet. -/
def windowsMeet (a b : Nat × Nat) : Bool := a.1 ≤ b.2 && b.1 ≤ a.2

/-! ## Bank claims (04 R97, R98) -/

/-- The row a reuse latch would hold: tile and row. -/
def TileRead.row (r : TileRead) : Fin 16 × Nat := (Fin.ofNat 16 (r.first / 256), r.first % 256 / r.lines)

/-- A write of a tile line planned ahead: its issue count, the tile, the line. -/
structure TileWrite where
  cyc : Nat
  tile : Nat
  line : Nat

/-- A reuse latch followed ahead: the row it holds, and the cycle of the bank read that put it there. -/
abbrev LatchAhead := Option ((Fin 16 × Nat) × Nat)

/-- A latch supplies the row of a read in cycle cyc: no write has emptied it since. -/
def latchHits (ws : List TileWrite) (l : LatchAhead) (r : TileRead) (cyc : Nat) : Bool :=
  match l with
  | some (row, since) =>
    row == r.row && !ws.any (fun w => w.tile == row.1.val && w.line / r.lines == row.2 && since ≤ w.cyc && w.cyc < cyc)
  | none => false

/-- Both latches of an engine followed ahead, and the bank reads so far. -/
structure ReadsAhead where
  a : LatchAhead
  b : LatchAhead
  claims : List Claim

/-- One read of cycle cyc: nothing when its latch supplies it; otherwise one access of each bank of its row, which its latch then holds. -/
def ReadsAhead.read (c : CoreId) (e : EngId) (ws : List TileWrite) (cyc : Nat) (st : ReadsAhead) (r : TileRead) : ReadsAhead :=
  let hit := (r.kind == 0 && latchHits ws st.a r cyc) || (r.kind == 1 && latchHits ws st.b r cyc)
  if hit then st
  else { a := if r.kind = 0 then some (r.row, cyc) else st.a, b := if r.kind = 1 then some (r.row, cyc) else st.b,
         claims := st.claims ++ ((List.range r.lines).filter (fun i => r.first + i < 4096)).map (fun i =>
           bankRead c e ((r.first + i) / 256) ((r.first + i) % 256) cyc) }

/-- The bank reads that the operations in flight have yet to make after an issue count, given the planned tile writes. -/
def MatrixEngine.readsAhead (g : CoreConfig) (c : CoreId) (e : EngId) (m : MatrixEngine) (ws : List TileWrite) (count : Nat) :
    ReadsAhead :=
  m.ops.foldl (fun st o =>
    if o.form.legacy then st
    else ((List.range o.t).filter (fun y => count < o.p + y)).foldl (fun st y =>
      (tileReads g e o.form o.w o.f y).foldl (ReadsAhead.read c e ws (o.p + y)) st) st)
    { a := m.reuseA.map (fun r => (r, count)), b := m.reuseB.map (fun r => (r, count)), claims := [] }

/-- What some planned tile writes add to the bank reads of an engine: rows read anew because a write empties the latch that would have supplied them (04 R97, R98; DEDUCED, log 83). -/
def MatrixEngine.induced (g : CoreConfig) (c : CoreId) (e : EngId) (m : MatrixEngine) (old new : List TileWrite) (count : Nat) :
    List Claim :=
  if m.ops.isEmpty then []
  else
    let before := (m.readsAhead g c e old count).claims
    ((m.readsAhead g c e (old ++ new) count).claims).filter (fun x => !before.contains x)

end Sys2Proof.Machine
end

