-- ==== Sys2Proof/Machine/Stream.lean ====
section
/-! DEFINITION. Stream.lean: the stream slot and chains (08 R187-R203, 04 R100, 09 R218-R223, R225-R232): plans and checks of a block, its issue, descriptor reads, start latches, lagging blocks, scheduled refresh, and the meanings of their commands. -/

namespace Sys2Proof.Machine

/-! ## Plans (08 R204) -/

/-- The first cycle from t in which W2 or W3 serves an engine (04 R104). -/
def portCycle (t : Nat) : Nat := if t % 4 < 2 then t + (2 - t % 4) else t

/-- Cycle in which group g of 8 lines passes the wide ports, the lines of group g being ready at start + (8g + 7) / n (04 R104). -/
def legacyCycle (start n : Nat) : Nat → Nat
  | 0 => portCycle (start + 7 / n)
  | g + 1 => portCycle (max (legacyCycle start n g + 1) (start + (8 * (g + 1) + 7) / n))

/-- What a block's plan needs to know of the core: its id, and whether it is in legacy mode. -/
structure Plan where
  core : CoreId
  legacy : Bool

/-- The plan of a core. -/
def State.planOf (s : State) (c : CoreId) : Plan := { core := c, legacy := (s.core c).cfg.legacy }

/-- Whether a block stores from a tile or a transposing move. -/
def Block.fromTile (b : Block) : Bool :=
  match b.kind with
  | .tile store _ _ _ => store
  | .sttx store _ _ _ => store
  | _ => false

/-- Access cycle of source line i, after P. -/
def Block.accessOf (b : Block) (k : Plan) (i : Nat) : Nat :=
  if k.legacy && b.fromTile then legacyCycle (b.count + 1) (lineRate b.desc) (i / 8) - b.count
  else 1 + i / lineRate b.desc

/-- Cycles from access to arrival for a source address (08 R204). -/
def Block.flight (b : Block) (k : Plan) (a : Nat) : Nat :=
  match placeOf a with
  | .slice o => 8 * hops k.core o + 2
  | .tile .. => 1
  | _ => dRlat b.desc

/-- Address that places a line's timing: a padding line moves as an in-bounds one (09 R227). -/
def Block.srcKey (b : Block) (k : Plan) (i : Nat) : Nat := (b.srcAt k.core i).getD (dSrc b.desc)

/-- Arrival cycle of source line i, after P. -/
def Block.arrivalOf (b : Block) (k : Plan) (i : Nat) : Nat := b.accessOf k i + b.flight k (b.srcKey k i)

/-- Cycle in which destination line j is written, or sent towards its destination, after P. -/
def Block.writeOf (b : Block) (k : Plan) (j : Nat) : Nat :=
  let w := b.needs j
  let t := b.arrivalOf k (w.1 + w.2 - 1) + b.lagOf j + 1
  match b.kind with
  | .tile false _ _ _ =>
    if k.legacy then max t (legacyCycle (b.count + b.arrivalOf k 0 + 1) (lineRate b.desc) (j / 8) - b.count) else t
  | _ => t

/-- What the lines that a block sends on one route in one cycle have in common on its links: block, kind of traversal (0 request, 1 returned line, 2 write), core or stack at the far end (02 R31; 08 R210; log 50). -/
def Block.linkTag (b : Block) (c : CoreId) (kind far : Nat) : Nat := ((c.val * 2 ^ 32 + b.id + 1) * 3 + kind) * 128 + far

/-- Ports W2 and W3 of an engine move one group of lines in a cycle (04 R104). -/
def wideClaim (o : CoreId) (e : EngId) (t cyc tag : Nat) : Claim := ⟨cyc, resWide o e, tag, 8 + 256 * (16 * e.val + t)⟩

/-- Claims of source line i (02 R31, 04 R81, R97, R104). -/
def State.srcClaims (s : State) (b : Block) (k : Plan) (i : Nat) : List Claim :=
  let a := b.count + b.accessOf k i
  match b.srcAt k.core i with
  | none => []
  | some addr =>
    match placeOf addr with
    | .slice o =>
      let h := hops k.core o
      linkClaims (route k.core o) a (b.linkTag k.core 0 o.val) ++ [readClaim o addr (a + 4 * h)] ++
        linkClaims (route o k.core) (a + 4 * h + 2) (b.linkTag k.core 1 o.val)
    | .tile o e t ln => if k.legacy then [wideClaim o e t.val a (b.id + 1)] else [bankRead o e t.val ln a]
    | .hbm => let st := s.channel addr / 64; linkClaims (routeStack k.core st) a (b.linkTag k.core 0 (64 + st))
    | .nowhere => []

/-- Claims of destination line j. -/
def State.dstClaims (s : State) (b : Block) (k : Plan) (j : Nat) : List Claim :=
  let w := b.count + b.writeOf k j
  let addr := b.dstAt k.core j
  match placeOf addr with
  | .slice o => linkClaims (route k.core o) w (b.linkTag k.core 2 o.val) ++ [writeClaim o addr (w + 4 * hops k.core o)]
  | .tile o e t ln => if k.legacy then [wideClaim o e t.val w (b.id + 1)] else [bankWrite o e t.val ln w]
  | .hbm => let st := s.channel addr / 64; linkClaims (routeStack k.core st) w (b.linkTag k.core 2 (64 + st))
  | .nowhere => []

/-- Claims of the index lines of an indexed block (09 R231). -/
def indexClaims (b : Block) (k : Plan) : List Claim :=
  (List.range ((dNidx b.desc + 15) / 16)).map (fun m => readClaim k.core (fld b.xpar 47 0 + 64 * m) (b.count + 1 + m))

/-- The tile lines that a block writes in an engine of its core, at their planned issue counts; a lagging block's have none. -/
def Block.tileWrites (b : Block) (k : Plan) (e : EngId) : List TileWrite :=
  if b.lag || k.legacy then [] else
  match b.kind with
  | .tile false e' t _ => if e' = e then (List.range 256).map (fun j => ⟨b.count + b.writeOf k j, t.val, j⟩) else []
  | .sttx false e' t _ => if e' = e then (List.range 256).map (fun j => ⟨b.count + b.writeOf k j, t.val, quadTile j⟩) else []
  | _ => []

/-- The tile lines that the blocks of a core write in an engine. -/
def State.tileWrites (s : State) (c : CoreId) (e : EngId) : List TileWrite :=
  (s.core c).str.blocks.flatMap (fun b => b.tileWrites (s.planOf c) e)

/-- The bank reads that a tile load brings about in its engine. -/
def State.inducedReads (s : State) (b : Block) (k : Plan) : List Claim :=
  allEngs.flatMap (fun e =>
    let new := b.tileWrites k e
    if new.isEmpty then []
    else ((s.core k.core).mx[e]).induced (s.core k.core).cfg k.core e (s.tileWrites k.core e) new b.count)

/-- Every scheduled access of a block, in line order. -/
def State.blockClaims (s : State) (b : Block) (k : Plan) : List Claim :=
  match b.kind with
  | .gather => indexClaims b k
  | .scatter => indexClaims b k
  | _ =>
    if b.srcCount = b.dstCount && (b.needs 0).2 = 1 then
      (List.range b.srcCount).flatMap (fun i => s.srcClaims b k i ++ s.dstClaims b k i)
    else (List.range b.srcCount).flatMap (s.srcClaims b k) ++ (List.range b.dstCount).flatMap (s.dstClaims b k)

/-- The same, with the bank reads that a tile load brings about. -/
def State.allClaims (s : State) (b : Block) (k : Plan) : List Claim := s.blockClaims b k ++ s.inducedReads b k

/-! ## Spans -/

/-- A span an access covers: first address, length, whether it is written. -/
structure Span where
  lo : Nat
  len : Nat
  write : Bool

/-- The memory spans of a block, source first (08 R201, 04 R100, 09 R226, R228, R230). -/
def Block.spans (b : Block) : List Span :=
  let d := b.desc
  match b.kind with
  | .copy xf =>
    let src : Span := if xf = 4 then
        (let k := windowOf b.xpar; ⟨dSrc d, 64 * ((k.h - 1) * dSstr d + k.w * dLen d), false⟩)
      else ⟨dSrc d, 64 * ((dRows d - 1) * dSstr d + dLen d), false⟩
    let dst := b.dstSpan
    let scl : List Span := if xf = 5 then [⟨fld b.xpar 47 0, 64 * (dRows d * dLen d / (mxsBytes b.xpar + 1)), true⟩] else []
    [src, ⟨dst.1, dst.2, true⟩] ++ scl
  | .tile store _ _ sh =>
    let l := rowLines sh.toNat
    [⟨dSrc d, 64 * ((256 / l - 1) * dSstr d + l), store⟩]
  | .sttx store _ _ w => [⟨dSrc d, 64 * ((128 / w - 1) * dSstr d + 2 * w), store⟩]
  | .gather =>
    [⟨fld b.xpar 47 0, 64 * ((dNidx d + 15) / 16), false⟩, ⟨dDst d, 64 * (dRows d * dNidx d), true⟩,
     ⟨dSrc d, 64 * (dRows d * dSstr d), false⟩]
  | .scatter =>
    [⟨fld b.xpar 47 0, 64 * ((dNidx d + 15) / 16), false⟩, ⟨dSrc d, 64 * (dRows d * dNidx d), false⟩,
     ⟨dDst d, 64 * (dRows d * dSstr d), true⟩]

/-- The tile lines a block moves, as a span. -/
def Block.tileSpan (b : Block) (c : CoreId) : List Span :=
  match b.kind with
  | .tile store e t _ => [⟨tileAlias c e t.val 0, 0x4000, !store⟩]
  | .sttx store e t _ => [⟨tileAlias c e t.val 0, 0x4000, !store⟩]
  | _ => []

/-- The smallest interval over some spans. -/
def hull : List Span → Option (Nat × Nat)
  | [] => none
  | x :: xs =>
    match hull xs with
    | none => some (x.lo, x.lo + x.len - 1)
    | some (lo, hi) => some (min x.lo lo, max (x.lo + x.len - 1) hi)

/-- The scoreboard ranges of a block: its destination lines, and the tile it reads (04 R91). -/
def Block.ranges (b : Block) (c : CoreId) : List SbRange :=
  let all := b.spans ++ b.tileSpan c
  let dst := match hull (all.filter (fun x => x.write)) with
    | some (lo, hi) => [({ blk := b.id, lo := lo, hi := hi, due := b.due, source := false } : SbRange)]
    | none => []
  dst ++ ((b.tileSpan c).filter (fun x => !x.write)).map (fun x =>
    ({ blk := b.id, lo := x.lo, hi := x.lo + x.len - 1, due := b.due, source := true } : SbRange))

/-- Whether a block transposes: one at a time holds the staging (09 R222). -/
def Block.transposes (b : Block) : Bool :=
  match b.kind with
  | .copy xf => xf = 1 || xf = 2 || xf = 3
  | .sttx .. => true
  | _ => false

/-- Whether a block is a gather or scatter. -/
def Block.indexed (b : Block) : Bool := b.kind == .gather || b.kind == .scatter

/-- Turns of an indexed block: ELEN for each index (09 R232). -/
def Block.turns (b : Block) : Nat := dNidx b.desc * dRows b.desc

/-- A block can issue: ranges free (08 R189), the transposing staging (09 R222) and index staging (R232) available. A transposing block holds the staging until its last destination line is released (DESIGN CHOICE, log 95). -/
def StreamUnit.room (u : StreamUnit) (b : Block) (c : CoreId) : Bool :=
  u.board.length + (b.ranges c).length ≤ 64 &&
  !(b.transposes && u.blocks.any (fun x => x.transposes && x.released.length < x.dstCount)) &&
  !(b.indexed && 2 ≤ (u.blocks.filter (fun x => x.indexed && x.turn < x.turns)).length)

/-! ## Checks (08 R203) -/

/-- Bits of a word that an encoding reserves: the lowest that is not 0. -/
def lowBad (d : BitVec 256) (allowed : List (Nat × Nat)) : List Nat :=
  let bad := d &&& ~~~maskOf 256 allowed
  if bad = 0 then [] else [lowestBit bad]

/-- Defined bits of a block descriptor by KIND. Bit 134 of a TILE, which R199 names neither a field nor reserved, is taken as reserved (DEDUCED, log 88). -/
def descFields : Nat → List (Nat × Nat)
  | 2 => [(255, 57), (55, 52), (47, 0)]
  | 3 => [(255, 216), (135, 135), (133, 64), (63, 57), (47, 24)]
  | _ => [(255, 216), (191, 60), (47, 24), (11, 0)]

/-- Whether a block takes an XPAR (09 R219). -/
def wantsXpar (d : BitVec 256) : Bool := dKind d = 4 || dKind d = 5 || (dKind d = 2 && (dXf d = 4 || dXf d = 5))

/-- Check 1 of a block descriptor: bit positions that fail. RLAT without an HBM source is a field that must be 0 (08 R200, DEDUCED, log 80). -/
def descBad (d : BitVec 256) (hbmSource : Bool) : List Nat :=
  let kind := dKind d
  if kind < 2 || 5 < kind then [60]
  else
    lowBad d (descFields kind) ++
    (if (kind = 2 || kind = 3) && 4 < dRate d then [57] else []) ++
    (if kind = 2 && (dXf d = 6 || dXf d = 7 || 10 < dXf d) then [52] else []) ++
    (if dRlat d ≠ 0 && !hbmSource then [240 + lowestBit (BitVec.ofNat 16 (dRlat d))] else [])

/-- Check 1 of an XPAR: bit positions that fail. -/
def xparBad (d x : BitVec 256) : List Nat :=
  if dKind d = 2 then
    if dXf d = 4 then lowBad x [(111, 64), (63, 28)] else lowBad x [(63, 59), (47, 0)]
  else
    lowBad x [(63, 56), (47, 0)] ++ (if fld x 59 58 = 3 then [58] else []) ++
    (if fld x 57 56 = 3 || (dKind d = 4 && fld x 57 56 ≠ 0) then [56] else [])

/-- Check 2 of a block descriptor and its XPAR: a zero where none may be; true: in the XPAR. The zeros that chapter 09 names (R225, R229) are looked for here too (DESIGN CHOICE, log 95). -/
def zeroBad (d x : BitVec 256) (hbmSource : Bool) : Option Bool :=
  let own := dGap d = 0 || dDue d = 0 || (hbmSource && dRlat d = 0) ||
    (match dKind d with
     | 2 => dLen d = 0 || dRows d = 0
     | 3 => false
     | _ => dNidx d = 0 || dRows d = 0 || dSstr d = 0)
  let k := windowOf x
  if own then some false
  else if dKind d = 2 && dXf d = 4 && (k.kh = 0 || k.kw = 0 || k.sh = 0 || k.sw = 0 || k.dh = 0 || k.dw = 0 || k.ow = 0 || k.h = 0 || k.w = 0)
  then some true else none

/-- The least of some positions. -/
def leastOf : List Nat → Option Nat
  | [] => none
  | x :: xs => least (some x) (leastOf xs)

/-- Check 3: bases, and the LEN rule of R202. -/
def Block.misaligned (b : Block) : Option Nat :=
  let d := b.desc
  let bases := (b.spans.map (fun x => x.lo)).filter (fun a => a % 64 ≠ 0)
  match bases with
  | a :: _ => some a
  | [] =>
    match b.kind with
    | .copy xf =>
      if (xf = 8 && dLen d % 2 ≠ 0) || ((xf = 9 || xf = 10) && dLen d % 8 ≠ 0) then some (64 * dLen d) else none
    | _ => none

/-- The ranges each span of an indexed block may lie in: indices, packed side and added-to table in the own slice, other tables also in HBM (09 R230). The places are checked with the spans, in check 4 (DESIGN CHOICE, log 95). -/
def State.indexedRanges (s : State) (b : Block) (c : CoreId) : List (List (Nat × Nat)) :=
  let own := s.ownRanges c
  let table := match s.partOf c with
    | some p => if b.kind == .scatter && fld b.xpar 57 56 ≠ 0 then own else own ++ [s.hbmWindow p]
    | none => own
  [own, own, table]

/-- Check 4: the first offending address. -/
def State.outside (s : State) (b : Block) (c : CoreId) : Option Nat :=
  let rss := if b.indexed then s.indexedRanges b c else b.spans.map (fun _ => s.streamRanges c)
  ((b.spans.zip rss).filterMap (fun x => s.firstBad c x.2 x.1.write x.1.lo x.1.len)).head?

/-- Check 5: the lowest pending range that a span meets. -/
def StreamUnit.overlap (u : StreamUnit) (b : Block) (c : CoreId) : Option Nat :=
  let spans := if b.fromTile then b.tileSpan c ++ b.spans else b.spans ++ b.tileSpan c
  (spans.filterMap (fun x => u.pendingAt x.lo x.len)).head?

/-- The checks of chapter 09 that come last: LEN rules of TR and MXS (R220, R228), a window's source against its destination (R226), a transposition's tiles against later ones (R221), of which the detail names the first that is met (DESIGN CHOICE, log 95). -/
def Block.kindBad (b : Block) (c : CoreId) : Option (Nat × Nat) :=
  let d := b.desc
  match b.kind with
  | .copy xf =>
    if xf = 4 then
      (match b.spans with
       | x :: y :: _ => if meets x.lo x.len y.lo y.len then some (0x06, dSrc d) else none
       | _ => none)
    else if xf = 5 then (if dLen d % (mxsBytes b.xpar + 1) = 0 then none else some (0x04, 64 * dLen d))
    else if b.transposes then
      if dLen d ≠ 2 || dRows d % 128 ≠ 0 then some (0x04, 64 * dLen d * dRows d)
      else
        let tiles := dRows d / 128
        let hit := fun (t u : Nat) => (List.range 256).any (fun j => (List.range 256).any (fun i =>
          b.dstAt c (256 * t + j) == copySrc d (256 * u + i)))
        let later := (List.range tiles).filter (fun u => (List.range u).any (fun t => hit t u))
        later.head?.map (fun u => (0x06, dSrc d + 64 * (128 * u * dSstr d)))
    else none
  | _ => none

/-! ## Issue of a block -/

/-- The accesses of a block, which go on in holds (02 R36). -/
def Block.planner (b : Block) : Planner := { slot := 2, bundle := b.bundle, runs := true }

/-- The accesses that a bundle's slot plans, which keep to issue counts (02 R36). -/
def State.slotPlanner (s : State) (c : CoreId) (slot : Nat) : Planner :=
  { slot := slot, bundle := (s.core c).ctl.pc, runs := false }

/-- Check 6: the detail of the first conflict, or the partition's claims with the new ones. -/
def State.claim (s : State) (c : CoreId) (w : Planner) (xs : List Claim) : Option Nat × State :=
  match s.partOf c with
  | none => (none, s)
  | some p =>
    let q := s.part p
    let last := xs.foldl (fun n x => max n x.cyc) 0
    let fetches := ((readOwners xs).filter (fun o => s.partOf o == some p)).flatMap (fun o => s.fetchesKnown q c o last)
    match addClaims (s.foreignLinks p ++ fetches) c w q.resv xs with
    | (some d, _) => (some d, s)
    | (none, rs) => (none, s.modPart p (fun q => { q with resv := rs }))

/-- A block enters the stream engine: its number, its ranges, its issue cycle; a lagging one counts (08 R188, R189; 04 R91). -/
def State.enterBlock (s : State) (c : CoreId) (b : Block) : State :=
  let id := (s.core c).str.nextId
  let b := { b with id := id, issued := s.nowOf c, count := (match s.partOf c with | some p => (s.part p).count | none => 0) }
  s.modStr c (fun u => { u with
    nextId := id + 1, blocks := u.blocks ++ [b], board := u.board ++ b.ranges c,
    lag := if b.lag then satAdd u.lag 1 else u.lag })

/-- A block not yet issued. -/
def newBlock (kind : BlockKind) (desc xpar : BitVec 256) (bundle : BitVec 48) (count due id : Nat) : Block :=
  { id := id, kind := kind, chain := none, cid := 0, seed := 0, desc := desc, xpar := xpar, descAddr := 0, bundle := bundle,
    issued := 0, count := count, due := due, lag := false, access := 0, srcs := [], staged := [], arrived := [], released := [],
    outs := [], written := 0, indices := [], turn := 0, lastTurn := 0, forced := none, elem0 := 0, failed := none }

/-! ## The stream slot (08 R194, R195; 04 R100; 09 R223) -/

/-- Field bits of each stream opcode below the opcode. -/
def strMask : Nat → Option (BitVec 88)
  | 0x00 => some 0
  | 0x01 => some (maskOf 88 [(87, 44)])
  | 0x02 => some (BitVec.allOnes 88)
  | 0x03 => some (maskOf 88 [(87, 85), (63, 0)])
  | 0x10 => some (BitVec.allOnes 88)
  | 0x11 => some (BitVec.allOnes 88)
  | 0x12 => some (BitVec.allOnes 88)
  | _ => none

/-- P[SP] + 64 * sext(SOFF), modulo 2^48; sp, soff: the fields' lowest bits. -/
def strBase (u : ControlUnit) (w : BitVec 88) (sp soff : Nat) : BitVec 48 :=
  u.p[Fin.ofNat 16 (fld w (sp + 3) sp)] + (w.extractLsb' soff 20).signExtend 48 <<< 6

/-- RATE, DUE and RLAT of a tile move. -/
def tileRate (w : BitVec 88) : Nat := fld w 80 78
/-- See tileRate. -/
def tileDue (w : BitVec 88) : Nat := fld w 29 14
/-- See tileRate. -/
def tileRlat (w : BitVec 88) : Nat := fld w 13 0
/-- ENG of a tile move. -/
def tileEng (w : BitVec 88) : EngId := Fin.ofNat 4 (fld w 86 85)
/-- T of a tile move. -/
def tileReg (w : BitVec 88) : Fin 16 := Fin.ofNat 16 (fld w 84 81)
/-- Memory base of a tile move. -/
def tileBase (u : ControlUnit) (w : BitVec 88) : BitVec 48 := strBase u w 74 54

/-- The descriptor that a tile move of the stream slot stands for (08 R199). -/
def tileDesc (base : BitVec 48) (w : BitVec 88) : BitVec 256 :=
  BitVec.ofNat 256 (3 * 2 ^ 60 + tileRate w * 2 ^ 57 + tileDue w * 2 ^ 24 + base.toNat * 2 ^ 64
    + (bit w 87).toNat * 2 ^ 135 + fld w 86 81 % 16 * 2 ^ 128 + fld w 86 85 * 2 ^ 132 + fld w 53 30 * 2 ^ 216 + tileRlat w * 2 ^ 240)

/-- The block of a STILE, or of a transposing move of element width w. width 0: STILE. -/
def State.slotBlock (s : State) (c : CoreId) (width : Nat) (w : BitVec 88) : Block :=
  let k := s.core c
  let e := tileEng w
  let t := tileReg w
  let kind := if width = 0 then BlockKind.tile (bit w 87) e t (BitVec.ofNat 2 (k.cfg.shape e t)) else .sttx (bit w 87) e t width
  let count := match s.partOf c with | some p => (s.part p).count | none => 0
  newBlock kind (tileDesc (tileBase k.ctl w) w) 0 k.ctl.pc count (count + tileDue w) k.str.nextId

/-- The checks of a tile move of the stream slot, in the order of R100 and R223. -/
def State.tileCauses (s : State) (c : CoreId) (width : Nat) (w : BitVec 88) : List Cause :=
  let k := s.core c
  let b := s.slotBlock c width w
  let hbmSource := !bit w 87 && isHbm (tileBase k.ctl w).toNat
  (if 4 < tileRate w then [Cause.reserved 2 398] else []) ++
  (if tileRlat w ≠ 0 && !hbmSource then [Cause.reserved 2 (320 + lowestBit (BitVec.ofNat 14 (tileRlat w)))] else []) ++
  (if width ≠ 0 && k.cfg.legacy then [Cause.port 2 (0x0F + width.log2 + 1)] else []) ++
  (if tileRate w ≤ 4 && k.str.room b c then
     (match (s.claim c b.planner (s.allClaims b (s.planOf c))).1 with
      | some d => [⟨4, 2, 0x10, d⟩]
      | none => [])
   else []) ++
  (if tileDue w = 0 then [Cause.check 2 0x0D 334] else []) ++
  (if tileRlat w = 0 && hbmSource then [Cause.check 2 0x0D 320] else []) ++
  (match b.misaligned with | some a => [Cause.check 2 0x04 a] | none => []) ++
  (match s.outside b c with | some a => [Cause.check 2 0x05 a] | none => []) ++
  (match k.str.overlap b c with | some a => [Cause.check 2 0x06 a] | none => []) ++
  (if width ≠ 0 && k.cfg.shape (tileEng w) (tileReg w) ≠ 0 then [Cause.check 2 0x03 (17 * (tileReg w).val)] else [])

/-- List base and descriptor count of an SCHN. -/
def schnBase (u : ControlUnit) (w : BitVec 88) : BitVec 48 := strBase u w 80 60
/-- See schnBase. -/
def schnCount (w : BitVec 88) : Nat := fld w 59 44
/-- Chain slot of an SCHN. -/
def schnSlot (w : BitVec 88) : Fin 16 := Fin.ofNat 16 (fld w 87 84)

/-- Lines of a list of n descriptors after HEAD. -/
def listLines (n : Nat) : Nat := n / 2 + 1

/-- Whether a chain slot is busy for an SCHN (08 R191). -/
def StreamUnit.busy (u : StreamUnit) (n : Fin 16) : Bool := u.chains[n].isSome || u.latches[n].isSome

/-- Claims of the descriptor lines read from an SCHN at count. -/
def schnClaims (c : CoreId) (base n count : Nat) : List Claim :=
  (List.range (min 8 (listLines n))).map (fun m => readClaim c (base + 64 * m) (count + 1 + m))

/-- The checks of SCHN (08 R193, R195). -/
def State.schnCauses (s : State) (c : CoreId) (w : BitVec 88) : List Cause :=
  let k := s.core c
  let base := (schnBase k.ctl w).toNat
  let n := schnCount w
  let count := match s.partOf c with | some p => (s.part p).count | none => 0
  (if k.str.busy (schnSlot w) then []
   else match (s.claim c (s.slotPlanner c 2) (schnClaims c base n count)).1 with
     | some d => [⟨4, 2, 0x10, d⟩]
     | none => []) ++
  (if n = 0 then [Cause.check 2 0x0D 364] else []) ++
  (if base % 64 ≠ 0 then [Cause.check 2 0x04 base] else []) ++
  (match firstOutside (s.ownRanges c) base (32 * (n + 1)) with | some a => [Cause.check 2 0x05 a] | none => []) ++
  (match k.str.pendingAt base (32 * (n + 1)) with | some a => [Cause.check 2 0x06 a] | none => [])

/-- The checks of SREF (08 R200, R214), made in normal mode too, where it has no effect (R213; DESIGN CHOICE, log 95). -/
def State.srefCauses (s : State) (c : CoreId) (w : BitVec 88) : List Cause :=
  match s.partOf c with
  | none => []
  | some p =>
    let b := (s.part p).pr.b.toNat
    let high := (fld w 63 0 / 2 ^ b) * 2 ^ b
    (if high ≠ 0 then [Cause.reserved 2 (320 + lowestBit (BitVec.ofNat 64 high))] else []) ++
    (if fld w 63 0 = 0 then [Cause.check 2 0x0D 320] else []) ++
    (if s.grade.stacks.length ≤ fld w 87 85 then [Cause.check 2 0x05 (s.hbmWindow p).1] else [])

/-- Opcode of the stream slot. -/
def opcStr (bits : BitVec 96) : Nat := fld bits 95 88

/-- Element width of a transposing move's opcode; 0 for STILE. -/
def sttxWidth (opc : Nat) : Nat := match opc with | 0x10 => 1 | 0x11 => 2 | 0x12 => 4 | _ => 0

/-- The causes to halt that the stream slot raises by itself, in its own order. -/
def State.strCauses (s : State) (c : CoreId) (bits : BitVec 96) : List Cause :=
  let w := bits.extractLsb' 0 88
  match strMask (opcStr bits) with
  | none => [Cause.opcode 2 (opcStr bits)]
  | some m =>
    reservedBits 2 320 w m ++
    match opcStr bits with
    | 0x00 => []
    | 0x01 => s.schnCauses c w
    | 0x03 => s.srefCauses c w
    | opc => s.tileCauses c (sttxWidth opc) w

/-- A chain starts: its descriptor lines are planned, at issue counts, or late, from oscillator cycles on (08 R192, R193). -/
def State.startChain (s : State) (c : CoreId) (n : Fin 16) (st : ChainStart) (count : Nat) (late : Bool) : State :=
  let first := if late then s.nowOf c else count
  s.modStr c (fun u => { u with
    nextId := u.nextId + 1,
    chains := u.chains.set n (some {
      cid := u.nextId, base := st.base, n := st.n, got := [],
      reads := (List.range (min 8 (listLines st.n))).map (fun m => (m, first + 1 + m, late)),
      nextDesc := 1, planned := count + 9, seed := 0, elems := 0, bundle := st.bundle, late := late, stuck := false }) })

/-- SCHN's effect: the chain starts, or waits in the slot's latch, where it replaces a waiting one (08 R191). -/
def State.schnOp (s : State) (c : CoreId) (w : BitVec 88) : State :=
  match s.partOf c with
  | none => s
  | some p =>
    let k := s.core c
    let n := schnSlot w
    let st : ChainStart := { base := (schnBase k.ctl w).toNat, n := schnCount w, bundle := k.ctl.pc }
    let count := (s.part p).count
    if k.str.busy n then
      s.modStr c (fun u => { u with
        latches := u.latches.set n (some st), dropped := if u.latches[n].isSome then satAdd u.dropped 1 else u.dropped })
    else ((s.claim c (s.slotPlanner c 2) (schnClaims c st.base st.n count)).2).startChain c n st count false

/-- A tile move's effect: its block issues, or waits and lags (08 R188, R189). -/
def State.tileOp (s : State) (c : CoreId) (width : Nat) (w : BitVec 88) : State :=
  let b := s.slotBlock c width w
  if (s.core c).str.room b c then ((s.claim c b.planner (s.allClaims b (s.planOf c))).2).enterBlock c b
  else s.modStr c (fun u => { u with waiting := u.waiting ++ [{ b with lag := true }] })

/-- The stream slot's effect. -/
def State.strOp (s : State) (c : CoreId) (bits : BitVec 96) : State :=
  let w := bits.extractLsb' 0 88
  match opcStr bits with
  | 0x00 => s
  | 0x01 => s.schnOp c w
  | 0x03 => s.srefOp c (fld w 87 85) (fld w 63 0)
  | opc => s.tileOp c (sttxWidth opc) w

/-- A stream-slot instruction by itself. -/
def issueStream (c : CoreId) (opc : BitVec 8) (w : BitVec 88) (s : State) : Result :=
  let bits : BitVec 96 := opc ++ w
  issueSlot c (s.strCauses c bits) (fun s => s.strOp c bits) s

/-! ## Chain blocks -/

/-- The address of descriptor i of a chain. -/
def Chain.descAddr (ch : Chain) (i : Nat) : Nat := ch.base + 32 * i

/-- Descriptor i, once its line has been read. -/
def Chain.desc (ch : Chain) (i : Nat) : Option (BitVec 256) := (ch.got.find? (fun x => x.1 == i)).map (fun x => x.2)

/-- The next block of a chain and the descriptor after it, once both are in the stream engine. -/
def Chain.next (ch : Chain) : Option (BitVec 256 × Option (BitVec 256)) :=
  match ch.desc ch.nextDesc with
  | none => none
  | some d =>
    if ch.n ≤ ch.nextDesc then some (d, none)
    else match ch.desc (ch.nextDesc + 1) with
      | some x => some (d, some x)
      | none => none

/-- The kind of a chain block. -/
def State.kindOf (s : State) (c : CoreId) (d : BitVec 256) : BlockKind :=
  match dKind d with
  | 2 => .copy (BitVec.ofNat 4 (dXf d))
  | 3 =>
    let e : EngId := Fin.ofNat 4 (fld d 133 132)
    let t : Fin 16 := Fin.ofNat 16 (fld d 131 128)
    .tile (bit d 135) e t (BitVec.ofNat 2 ((s.core c).cfg.shape e t))
  | 4 => .gather
  | _ => .scatter

/-- Elements that a block numbers for stochastic rounding (06 R160). -/
def Block.elements (b : Block) : Nat :=
  match b.kind with
  | .copy xf => if xf = 8 || xf = 9 || xf = 10 then 16 * dLen b.desc * dRows b.desc else 0
  | _ => 0

/-- The next block of a chain as it would issue at count: its planned count is the last one's plus its GAP, bits 127:112, of a misplaced HEAD or XPAR too (08 R192, R196; DESIGN CHOICE, log 95). -/
def State.chainBlock (s : State) (c : CoreId) (n : Fin 16) (ch : Chain) (d : BitVec 256) (x : Option (BitVec 256)) (lag : Bool) :
    Block :=
  let p := ch.planned + dGap d
  let count := match s.partOf c with | some q => (s.part q).count | none => 0
  { newBlock (s.kindOf c d) d (x.getD 0) ch.bundle count (p + dDue d) (s.core c).str.nextId with
    chain := some n, cid := ch.cid, seed := ch.seed, descAddr := BitVec.ofNat 48 (ch.descAddr ch.nextDesc), lag := lag,
    elem0 := ch.elems }

/-- Why a chain block is refused: reason, detail, the descriptor's address (08 R203, 09 R219). -/
structure Refused where
  reason : Nat
  detail : Nat
  addr : Nat

/-- The list line whose read the issue of descriptor i plans, if i is the first block described in its line (08 R193). -/
def Chain.plans (ch : Chain) (i : Nat) : Option Nat :=
  let m := i / 2 + 8
  let first := i % 2 = 0 || (match ch.desc (i - 1) with | some d => dKind d = 1 || dKind d = 6 | none => true)
  if first && m < listLines ch.n then some m else none

/-- The checks of a chain block at its issue, without check 6. -/
def State.refusal (s : State) (c : CoreId) (ch : Chain) (b : Block) (x : Option (BitVec 256)) : Option Refused :=
  let d := b.desc
  let i := ch.nextDesc
  let at_ := ch.descAddr i
  let after := if i < ch.n then ch.descAddr (i + 1) else at_
  let hbmSource := !b.fromTile && b.kind != .scatter && isHbm (dSrc d)
  let isX := match x with | some x => dKind x = 6 | none => false
  match leastOf (descBad d hbmSource) with
  | some pos => some ⟨0x02, pos, at_⟩
  | none =>
    if wantsXpar d ≠ isX then some ⟨0x02, 60, after⟩
    else
      match (if isX then leastOf (xparBad d b.xpar) else none) with
      | some pos => some ⟨0x02, pos, after⟩
      | none =>
        match zeroBad d b.xpar hbmSource with
        | some inX => let a := if inX then after else at_; some ⟨0x0D, a, a⟩
        | none =>
          match b.misaligned, s.outside b c, (s.core c).str.overlap b c with
          | some a, _, _ => some ⟨0x04, a, at_⟩
          | none, some a, _ => some ⟨0x05, a, at_⟩
          | none, none, some a => some ⟨0x06, a, at_⟩
          | none, none, none => none

/-- A chain block's halt (08 R203): in the way of a halt in flight, its chain ends; at the block's issue, which follows the bundle of its cycle, the record has that bundle's issue count. -/
def State.refuseBlock (s : State) (c : CoreId) (n : Fin 16) (ch : Chain) (r : Refused) : State :=
  let issued := match s.partOf c with | some p => (s.part p).cycDone | none => false
  (s.haltCore c true 2 r.reason ch.bundle r.detail issued).modStr c (fun u => { u with
    sdesc := BitVec.ofNat 48 r.addr, chains := u.chains.set n none })

/-- The chain after one of its blocks has issued; it ends with its last block (08 R191-R193). A late line read comes from the cycle after the planned issue on: the next cycle when that issue count is the present one, at once when it has passed. -/
def Chain.afterBlock (ch : Chain) (b : Block) (hasX : Bool) (now : Nat) : Option Chain :=
  let nxt := ch.nextDesc + (if hasX then 2 else 1)
  if ch.n < nxt then none
  else some { ch with
    nextDesc := nxt, planned := ch.planned + dGap b.desc, elems := ch.elems + b.elements, stuck := false,
    reads := match ch.plans ch.nextDesc with
      | some m =>
        let late := b.lag || ch.late
        ch.reads ++ [(m, if !late then b.count + 1 else if ch.planned + dGap b.desc < b.count then now else now + 1, late)]
      | none => ch.reads }

/-- A chain block that passes its checks, or is refused. Lagging blocks skip check 6 (08 R190). -/
def State.issueChainBlock (s : State) (c : CoreId) (n : Fin 16) (ch : Chain) (d : BitVec 256) (x : Option (BitVec 256)) (lag : Bool) :
    State :=
  let b := s.chainBlock c n ch d x lag
  let isX := match x with | some x => dKind x = 6 | none => false
  match s.refusal c ch b x with
  | some r => s.refuseBlock c n ch r
  | none =>
    let lineRead := match ch.plans ch.nextDesc with
      | some m => [readClaim c (ch.base + 64 * m) (b.count + 1)]
      | none => []
    let own := if lag then (none, s) else s.claim c b.planner (s.allClaims b (s.planOf c))
    match own with
    | (some det, _) => s.refuseBlock c n ch ⟨0x10, det, ch.descAddr ch.nextDesc⟩
    | (none, s1) =>
      match (if lag then (none, s1) else s1.claim c { b.planner with runs := false } lineRead) with
      | (some det, _) => s.refuseBlock c n ch ⟨0x10, det, ch.descAddr (2 * ((ch.plans ch.nextDesc).getD 0))⟩
      | (none, s2) =>
        match b.kindBad c with
        | some (reason, det) => s.refuseBlock c n ch ⟨reason, det, ch.descAddr ch.nextDesc⟩
        | none => (s2.enterBlock c b).modStr c (fun u => { u with chains := u.chains.set n (ch.afterBlock b isX (s.nowOf c)) })

/-- Whether the next block of a chain slot is planned for the issue count of the present cycle. -/
def StreamUnit.dueAt (u : StreamUnit) (n : Fin 16) (count : Nat) : Bool :=
  match u.chains[n] with
  | some ch => !ch.late && !ch.stuck && (match ch.next with | some (d, _) => ch.planned + dGap d == count | none => false)
  | none => false

/-- Whether the next block of a chain slot lags: past its planned count, or its chain started late, or it found no range (08 R189, R191). -/
def StreamUnit.lagsAt (u : StreamUnit) (n : Fin 16) (count : Nat) : Bool :=
  match u.chains[n] with
  | some ch => (match ch.next with
    | some (d, _) => ch.planned + dGap d < count || (ch.planned + dGap d == count && (ch.late || ch.stuck))
    | none => false)
  | none => false

/-- The first waiting stream-slot block that finds what it needs; a waiting block holds back none but later blocks of its own chain (08 R189). -/
def StreamUnit.ready (u : StreamUnit) (c : CoreId) : Option Block := u.waiting.find? (fun b => u.room b c)

/-- The chain slot, in ascending number, whose next block lags and finds what it needs (08 R188, R189). -/
def State.lagReady (s : State) (c : CoreId) : Option (Fin 16) :=
  match s.partOf c with
  | none => none
  | some p =>
    let u := (s.core c).str
    all16.find? (fun n => u.lagsAt n (s.part p).count && (match u.chains[n] with
      | some ch => (match ch.next with
        | some (d, x) => u.room (s.chainBlock c n ch d x true) c
        | none => false)
      | none => false))

/-! ## Meanings -/

/-- SCHN (08 R192). -/
def execSchn (core : CoreId) (w : BitVec 88) (s : State) : Result := issueStream core 0x01 w s

/-- STILE (08 R194). -/
def execStile (core : CoreId) (w : BitVec 88) (s : State) : Result := issueStream core 0x02 w s

/-- STTX1 (09 R223). -/
def execSttx1 (core : CoreId) (w : BitVec 88) (s : State) : Result := issueStream core 0x10 w s

/-- STTX2 (09 R223). -/
def execSttx2 (core : CoreId) (w : BitVec 88) (s : State) : Result := issueStream core 0x11 w s

/-- STTX4 (09 R223). -/
def execSttx4 (core : CoreId) (w : BitVec 88) (s : State) : Result := issueStream core 0x12 w s

/-- SREF (08 R214). -/
def execSref (core : CoreId) (w : BitVec 88) (s : State) : Result := issueStream core 0x03 w s

/-- CHAIN_LATCH_START (08 R191): the chain in the start latch of a free slot starts; its blocks lag. -/
def execChainLatchStart (core : CoreId) (slot : Fin 16) (s : State) : Result :=
  let u := (s.core core).str
  match s.partOf core, u.chains[slot], u.latches[slot] with
  | some p, none, some st =>
    if (s.part p).live && !(s.core core).ctl.halted then
      .next ((s.modStr core (fun u => { u with latches := u.latches.set slot none })).startChain core slot st (s.part p).count true)
    else .next s
  | _, _, _ => .next s

/-- The descriptors that a list line holds, up to the chain's last. -/
def lineDescs (ch : Chain) (m : Nat) (l : Line) : List (Nat × BitVec 256) :=
  ([(2 * m, l.extractLsb' 0 256), (2 * m + 1, l.extractLsb' 256 256)]).filter (fun x => x.1 ≤ ch.n)

/-- Positions of HEAD that fail: KIND, reserved bits (08 R196, R197). -/
def headBad (d : BitVec 256) : List Nat := if dKind d ≠ 1 then [60] else lowBad d [(79, 60), (31, 0)]

/-- A list line has been read: its descriptors are in the stream engine; HEAD is checked (08 R193, R196). -/
def State.gotLine (s : State) (c : CoreId) (n : Fin 16) (ch : Chain) (m : Nat) (l : Line) : State :=
  let ch' := { ch with got := ch.got ++ lineDescs ch m l }
  if m ≠ 0 then s.modStr c (fun u => { u with chains := u.chains.set n (some ch') })
  else
    let head := l.extractLsb' 0 256
    match leastOf (headBad head) with
    | some pos => s.refuseBlock c n ch ⟨0x02, pos, ch.descAddr 0⟩
    | none => s.modStr c (fun u => { u with
        chains := u.chains.set n (some { ch' with seed := head.extractLsb' 0 32 }),
        budgets := u.budgets ++ [{ cid := ch.cid, cbud := fld head 79 64, sum := 0, past := false }] })

/-- Whether a planned line read of a chain is made now: in its cycle, or, late, from its cycle on in a cycle with an idle read slot (08 R193). -/
def State.readReady (s : State) (c : CoreId) (p : PartId) (ch : Chain) (r : Nat × Nat × Bool) : Bool :=
  let q := s.part p
  !q.cycDone && (if r.2.2 then r.2.1 ≤ q.now && s.idle p (resRead c (bankGroup (ch.base + 64 * r.1)))
    else q.issuing && r.2.1 == q.count)

/-- DESCRIPTOR_LINE_READ (08 R193): a planned line of a chain is read in its cycle; a late one in the first cycle its bank group's read slot is idle. An uncorrectable line halts the core (04 R88). -/
def execDescriptorLineRead (core : CoreId) (slot : Fin 16) (ecc : EccResult) (s : State) : Result :=
  match s.partOf core, (s.core core).str.chains[slot] with
  | some p, some ch =>
    if !(s.part p).live || (s.core core).ctl.halted then .next s
    else match ch.reads.find? (s.readReady core p ch) with
    | none => .next s
    | some r =>
      let a := ch.base + 64 * r.1
      let ch' := { ch with reads := ch.reads.erase r }
      let bad := (s.found a ecc).failed
      let s := (s.countEcc a ecc).take p (resRead core (bankGroup a))
      if bad then .next (s.refuseBlock core slot ch' ⟨0x0C, a, (s.core core).str.sdesc.toNat⟩)
      else .next (s.gotLine core slot ch' r.1 (s.line a))
  | _, _ => .next s

/-- BLOCK_ISSUE (08 R188): the next block of a chain slot issues at its planned count, after the bundle of that cycle and the lower slots; without a free range it waits and lags (R189). -/
def execBlockIssue (core : CoreId) (slot : Fin 16) (s : State) : Result :=
  match s.partOf core with
  | none => .next s
  | some p =>
    let q := s.part p
    let u := (s.core core).str
    if q.live && q.cycDone && q.issued && !(s.core core).ctl.halted && u.dueAt slot q.count &&
        !all16.any (fun n => n < slot && u.dueAt n q.count) then
      match u.chains[slot] with
      | some ch =>
        match ch.next with
        | some (d, x) =>
          if u.room (s.chainBlock core slot ch d x false) core then .next (s.issueChainBlock core slot ch d x false)
          else .next (s.modStr core (fun u => { u with chains := u.chains.set slot (some { ch with stuck := true }) }))
        | none => .next s
      | none => .next s
    else .next s

/-- BLOCK_LAG_ISSUE (08 R189, R190): the first waiting block issues late, once it finds a range; during a hold too. -/
def execBlockLagIssue (core : CoreId) (s : State) : Result :=
  match s.partOf core with
  | none => .next s
  | some p =>
    let q := s.part p
    let u := (s.core core).str
    if q.live && q.cycDone && !(s.core core).ctl.halted then
      match u.ready core, s.lagReady core with
      | some b, _ => .next ((s.modStr core (fun u => { u with waiting := u.waiting.erase b })).enterBlock core b)
      | none, some n =>
        match u.chains[n] with
        | some ch => (match ch.next with
          | some (d, x) => .next (s.issueChainBlock core n ch d x true)
          | none => .next s)
        | none => .next s
      | none, none => .next s
    else .next s

end Sys2Proof.Machine
end

