-- ==== Sys2Proof/Machine/Lines.lean ====
section
/-! DEFINITION. Lines.lean: the movement of a block's lines (08 R204-R211; 04 R101, R104; 09 R222-R234), completion (R205), and the meanings of their commands. -/

namespace Sys2Proof.Machine

/-- A stack's number for an HBM address. -/
def State.stackAt (s : State) (a : Nat) : Nat := s.channel a / 64

/-- Place of a request in its queue's order: stream slot, then chain slots, then line number (08 R208). -/
def Block.place (b : Block) (i : Nat) : Nat := (match b.chain with | none => 0 | some n => n.val + 1) * 2 ^ 32 + i

/-- HBM lines requested and not yet arrived (08 R210). -/
def StreamUnit.stagingUsed (u : StreamUnit) : Nat :=
  (u.blocks.map (fun b => (b.srcs.filter (fun x => isHbm x.addr && !x.unsent)).length)).sum

/-- HBM requests that wait for a staging entry alone; those of a lagging block may wait for links too, and hold back none (08 R210, R211). -/
def StreamUnit.unsent (u : StreamUnit) : Bool := u.blocks.any (fun b => !b.lag && b.srcs.any (fun x => x.unsent && isHbm x.addr))

/-- A new HBM request finds no staging entry, or others wait before it (08 R210). -/
def StreamUnit.excess (u : StreamUnit) : Bool := u.unsent || 4096 ≤ u.stagingUsed

/-- The links of a route carry no scheduled traversal, of any partition, at the cycles a request sent now would use them (08 R211). -/
def State.routeFree (s : State) (p : PartId) (rt : List (Nat × Nat)) : Bool :=
  let q := s.part p
  let links := q.resv ++ s.foreignLinks p
  rt.zipIdx.all (fun e => !links.any (fun r => r.cyc == q.count + 4 * e.2 && r.res == resLink e.1.1 e.1.2))

/-- The route a line takes from a core to an address. -/
def State.routeTo (s : State) (c : CoreId) (a : Nat) : List (Nat × Nat) :=
  match placeOf a with
  | .slice o => route c o
  | .hbm => routeStack c (s.stackAt a)
  | _ => []

/-- The slot or bank an address uses, for a read or a write; none off the die. -/
def slotOf (a : Nat) (write : Bool) : Option Nat :=
  match placeOf a with
  | .slice o => some (if write then resWrite o (bankGroup a) else resRead o (bankGroup a))
  | .tile o e t ln => some (resBank o e (bankOf t.val ln))
  | _ => none

/-- Whether the slot or bank of an address is idle now; true where it uses none. -/
def State.slotIdle (s : State) (p : PartId) (a : Nat) (write : Bool) : Bool :=
  match slotOf a write with | some r => s.idle p r | none => true

/-- The wide ports of an engine are free in the present cycle for a group of eight lines (04 R104). -/
def State.wideIdle (s : State) (p : PartId) (o : CoreId) (e : EngId) (group : Nat) : Bool :=
  let q := s.part p
  q.used.contains (resWide o e * 64 + group + 1) || (s.idle p (resWide o e) && !(List.range 32).any (fun g => q.used.contains (resWide o e * 64 + g + 1)))

/-- The wide port that a late line of a legacy core takes, for its group. -/
def State.takeWide (s : State) (c : CoreId) (p : PartId) (a : Nat) : State :=
  match placeOf a with
  | .tile o e _ ln => if (s.core c).cfg.legacy then s.take p (resWide o e * 64 + ln / 8 + 1) else s
  | _ => s

/-- The slot or bank of an address taken. -/
def State.takeSlot (s : State) (p : PartId) (a : Nat) (write : Bool) : State :=
  match slotOf a write with | some r => s.take p r | none => s

/-! ## Failing lines (04 R88, 08 R212) -/

/-- Whether destination line j of a block needs a source line from line on; the lines of an indexed block correspond one to one. -/
def Block.after (b : Block) (line j : Nat) : Bool := if b.indexed then line ≤ j else line < (b.needs j).1 + (b.needs j).2

/-- The requests of a block's destination lines leave the queues where f holds. -/
def State.dropWrites (s : State) (c : CoreId) (id : Nat) (f : Nat → Bool) : State :=
  let mine : HbmReq → Bool := fun r => match r with | .write k b j _ _ => k == c && b == id && f j | _ => false
  { s with
    transit := s.transit.filter (fun t => !mine t.req)
    pcs := s.pcs.map (fun (e : Nat × PseudoChannel) => (e.1, { e.2 with queue := e.2.queue.filter (fun r => !mine r) })) }

/-- The halt of a core for a line that a block put in flight (04 R88, 08 R212): that line and the block's later lines are never written, no later block of its chain issues. -/
def State.haltBlock (s : State) (c : CoreId) (b : Block) (line reason detail : Nat) : State :=
  (((s.haltCore c true 2 reason b.bundle detail).dropWrites c b.id (b.after line)).modBlock c b.id (fun x => { x with
      access := 2 ^ 40, failed := some (min line (x.failed.getD line)), srcs := x.srcs.filter (fun l => l.idx < line), outs := x.outs.filter (fun o => !b.after line o.idx) })).modStr c
    (fun u => { u with
    chains := match b.chain with
      | some n => (match u.chains[n] with | some ch => if ch.cid = b.cid then u.chains.set n none else u.chains | none => u.chains)
      | none => u.chains })

/-- HBM_READ_READY (08 R209-R212): the oldest read's data is in the controller's staging and arrives LQ later, a line not late at its on-time arrival if that is later; past it the line is late; an uncorrectable line halts the reading core. -/
def execHbmReadReady (stack : Fin 6) (idx : Fin 64) (ecc : EccResult) (s : State) : Result :=
  let ch := chanOf stack idx
  match (s.pc ch).reads with
  | (.read c blk line addr, found) :: rest =>
    let s := (s.modPc ch (fun q => { q with reads := rest })).countHbm stack ecc
    match s.blockOf c blk with
    | none => .next s
    | some b =>
      if ecc.failed then .next (s.haltBlock c b line 0x0C addr)
      else
        let at_ := s.nowOf c + lq c stack.val
        let late := b.srcs.any (fun x => x.idx == line && x.due < at_ && !x.late)
        let s := s.modBlock c blk (fun b => { b with srcs := b.srcs.map (fun x =>
          if x.idx = line then { x with data := some found, due := if x.late then at_ else max x.due at_, late := x.late || x.due < at_ }
          else x) })
        .next (if late then s.countLate c else if b.srcs.any (fun x => x.idx == line && x.late) then s else s.undelayed c blk)
  | _ => .next s

/-! ## Completion (08 R205, 04 R91, 09 R234) -/

/-- Ranges of a block leave; of its source only, if source. -/
def State.leave (s : State) (c : CoreId) (id : Nat) (source : Bool) : State :=
  s.modStr c (fun u => { u with board := u.board.filter (fun r => !(r.blk == id && (r.source || !source))) })

/-- A block is complete: it leaves, with its ranges and, once no block or chain slot is left, its chain's budget. -/
def State.finishBlock (s : State) (c : CoreId) (b : Block) : State :=
  (s.leave c b.id false).modStr c (fun u =>
    let blocks := u.blocks.filter (fun x => x.id != b.id)
    { u with
      blocks := blocks,
      budgets := u.budgets.filter (fun g => g.cid != b.cid || blocks.any (fun x => x.cid == g.cid) ||
        u.chains.toList.any (fun x => match x with | some ch => ch.cid == g.cid | none => false)) })

/-- Destination lines of a block; an indexed block writes one for each turn that writes. -/
def Block.lineCount (b : Block) : Nat :=
  match b.kind with
  | .gather => b.turns
  | .scatter => (b.indices.filter (fun x => x.isSome)).length * dRows b.desc
  | _ => b.dstCount

/-- Whether a block has nothing left to do. -/
def Block.finished (b : Block) : Bool :=
  b.written == b.lineCount && b.outs.isEmpty && (!b.indexed || (b.turn == b.turns && dNidx b.desc ≤ b.indices.length))

/-- One destination line performed. -/
def State.lineDone (s : State) (c : CoreId) (id idx : Nat) : State :=
  let s := s.modBlock c id (fun b => { b with written := b.written + 1, outs := b.outs.filter (fun o => o.idx != idx) })
  match s.blockOf c id with
  | some b => if b.finished then s.finishBlock c b else s
  | none => s

/-! ## Sources (08 R204, R210, R211) -/

/-- A source line under way. -/
def newLine (idx addr due : Nat) (data : Option Line) (late unsent : Bool) : LineInFlight :=
  { idx := idx, addr := addr, due := due, data := data, late := late, unsent := unsent }

/-- Adds a line under way. -/
def State.addSrc (s : State) (c : CoreId) (id : Nat) (x : LineInFlight) : State :=
  s.modBlock c id (fun b => { b with srcs := b.srcs ++ [x], access := b.access + 1 })

/-- A read of a line for a block: counted, its slot taken; an uncorrectable line halts the core that issued the block (04 R88, R102). -/
def State.readFor (s : State) (c : CoreId) (p : PartId) (b : Block) (i a : Nat) (ecc : EccResult) (ok : State → State) : State :=
  let s' := (s.countEcc a ecc).takeSlot p a false
  if (s.found a ecc).failed then s'.haltBlock c b i 0x0C a else ok s'

/-- The request of source line i sets out for its queue. -/
def State.request (s : State) (c : CoreId) (now : Nat) (b : Block) (i a : Nat) : State :=
  s.sendHbm c (now + lq c (s.stackAt a)) (b.place i) (s.channel a) (.read c b.id i a)

/-- The source line whose access cycle comes next is accessed in the present cycle; late: it belongs to a lagging block. An HBM request that finds no staging entry waits, and is late (08 R210). -/
def State.accessLine (s : State) (c : CoreId) (p : PartId) (b : Block) (late : Bool) (ecc : EccResult) : State :=
  let i := b.access
  let k := s.planOf c
  let now := (s.part p).now
  let s := if late then s.countLate c else s
  match b.srcAt c i with
  | none => s.addSrc c b.id (newLine i 0 (now + b.flight k (dSrc b.desc)) (some 0) late false)
  | some a =>
    match placeOf a with
    | .slice o =>
      if o = c then
        s.readFor c p b i a ecc (fun s => s.addSrc c b.id (newLine i a (now + 2) (some (s.line a)) late false))
      else s.addSrc c b.id (newLine i a (now + 4 * hops c o) none late false)
    | .tile .. => s.readFor c p b i a ecc (fun s => s.addSrc c b.id (newLine i a (now + 1) (some (s.line a)) late false))
    | _ =>
      if (s.core c).str.excess then
        (if late then s else s.countLate c).addSrc c b.id (newLine i a now none true true)
      else (s.request c now b i a).addSrc c b.id (newLine i a (now + dRlat b.desc) none late false)

/-- The remote read of a line that is due at its owner now (08 R204). -/
def Block.remoteDue (b : Block) (now : Nat) : Option LineInFlight :=
  b.srcs.find? (fun x => x.data.isNone && !x.unsent && !isHbm x.addr && x.due ≤ now)

/-- That read performed: the line returns after the same route. -/
def State.remoteRead (s : State) (c : CoreId) (p : PartId) (b : Block) (x : LineInFlight) (ecc : EccResult) : State :=
  let h := match placeOf x.addr with | .slice o => hops c o | _ => 0
  s.readFor c p b x.idx x.addr ecc (fun s => s.modBlock c b.id (fun b => { b with srcs := b.srcs.map (fun y =>
    if y.idx = x.idx then { y with data := some (s.line x.addr), due := (s.part p).now + 4 * h + 2 } else y) }))

/-- The partition of a core, if it is live. -/
def State.liveOf (s : State) (c : CoreId) : Option PartId :=
  match s.partOf c with | some p => if (s.part p).live then some p else none | none => none

/-- LINE_ACCESS (08 R204): in a line's access cycle its source is read or its request sent; in the cycle of a remote read, its owner reads it. -/
def execLineAccess (core : CoreId) (blk : Nat) (ecc : EccResult) (s : State) : Result :=
  match s.liveOf core, s.blockOf core blk with
  | some p, some b =>
    if b.lag || b.indexed then .next s
    else
      let now := (s.part p).now
      match b.remoteDue now with
      | some x => .next (s.remoteRead core p b x ecc)
      | none =>
        if b.access < b.srcCount && b.issued + b.accessOf (s.planOf core) b.access ≤ now then
          .next (s.accessLine core p b false ecc)
        else .next s
  | _, _ => .next s

/-- Whether a late line moves between the core and an address now: in an idle slot or tile bank, in a cycle of its wide port, or over free links (08 R211; 04 R104). -/
def State.lateFree (s : State) (c : CoreId) (p : PartId) (a : Nat) (write : Bool) : Bool :=
  match placeOf a with
  | .slice o => if o = c then s.slotIdle p a write else s.routeFree p (s.routeTo c a)
  | .tile o e _ ln =>
    if (s.core c).cfg.legacy then 2 ≤ (s.part p).count % 4 && s.wideIdle p o e (ln / 8) else s.slotIdle p a write
  | _ => s.routeFree p (s.routeTo c a)

/-- The access of a waiting line of a lagging block. -/
def State.accessWaiting (s : State) (c : CoreId) (p : PartId) (b : Block) (x : LineInFlight) (ecc : EccResult) : State :=
  let now := (s.part p).now
  let put := fun (s : State) (y : LineInFlight) => s.modBlock c b.id (fun b => { b with srcs := b.srcs.map (fun z =>
    if z.idx = y.idx then y else z) })
  match placeOf x.addr with
  | .slice o =>
    if o = c then s.readFor c p b x.idx x.addr ecc (fun s => put s { x with unsent := false, data := some (s.line x.addr), due := now + 2 })
    else put s { x with unsent := false, due := now + 4 * hops c o }
  | _ => (s.takeWide c p x.addr).readFor c p b x.idx x.addr ecc (fun s =>
      put s { x with unsent := false, data := some (s.line x.addr), due := now + 1 })

/-- A key that puts requests in their order: their cycle, then the order of R208. -/
def requestKey (b : Block) (x : LineInFlight) : Nat := x.due * 2 ^ 40 + b.place x.idx

/-- The HBM requests of a stream engine that wait, in no order. -/
def StreamUnit.waits (u : StreamUnit) : List (Block × LineInFlight) :=
  u.blocks.flatMap (fun b => (b.srcs.filter (fun x => x.unsent && isHbm x.addr)).map (fun x => (b, x)))

/-- The earliest of some requests (08 R210). -/
def firstRequest (l : List (Block × LineInFlight)) : Option (Block × LineInFlight) :=
  l.foldl (fun o y => match o with
    | none => some y
    | some z => if requestKey y.1 y.2 < requestKey z.1 z.2 then some y else o) none

/-- STAGING_FREE_SEND (08 R210): the first waiting request is sent in the first cycle in which a staging entry is free; one of a lagging block waits until its links are free too, and the requests after it go on (R211). -/
def execStagingFreeSend (core : CoreId) (s : State) : Result :=
  match s.liveOf core with
  | some p =>
    match firstRequest ((s.core core).str.waits.filter (fun y => !y.1.lag || s.routeFree p (s.routeTo core y.2.addr))) with
    | some (b, x) =>
      if (s.core core).str.stagingUsed < 4096 then
        let now := (s.part p).now
        .next ((s.request core now b x.idx x.addr).modBlock core b.id (fun b => { b with srcs := b.srcs.map (fun y =>
          if y.idx = x.idx then { y with unsent := false, due := now } else y) }))
      else .next s
    | none => .next s
  | none => .next s

/-! ## Arrival and release -/

/-- The staged line number i; zeros where there is none. -/
def Block.got (b : Block) (i : Nat) : Line := match b.staged.find? (fun x => x.1 == i) with | some x => x.2 | none => 0

/-- The source lines that destination line j needs have all arrived, and none of them comes after one that failed (04 R88). -/
def Block.hasAll (b : Block) (j : Nat) : Bool :=
  let w := b.needs j
  !b.failed.any (fun f => b.after f j) && (List.range w.2).all (fun i => b.staged.any (fun x => x.1 == w.1 + i))

/-- Arrival cycle of the last of them. -/
def Block.lastArrival (b : Block) (j : Nat) : Nat :=
  let w := b.needs j
  b.arrived.foldl (fun t x => if w.1 ≤ x.1 && x.1 < w.1 + w.2 then max t x.2 else t) 0

/-- Destination line j is released: it is written, or sent, 1 c later; late when that is past its planned cycle (08 R211). A legacy tile load waits for its wide port. -/
def State.release (s : State) (c : CoreId) (b : Block) (j now : Nat) : State :=
  let k := s.planOf c
  let due := match b.kind with
    | .tile false _ _ _ => if k.legacy then max (now + 1) (b.issued + b.writeOf k j) else now + 1
    | _ => now + 1
  let out : LineOut := { idx := j, addr := b.dstAt c j, due := due, data := b.dataOf b.got j,
                         late := b.lag || b.issued + b.writeOf k j < due, stage := 0 }
  s.modBlock c b.id (fun b => { b with outs := b.outs ++ [out], released := b.released ++ [j] })

/-- Whether a block releases its lines by commands of their own: transposition, transposing moves, MXS. -/
def Block.staging (b : Block) : Bool :=
  match b.kind with | .copy xf => xf = 1 || xf = 2 || xf = 3 || xf = 5 | .sttx .. => true | _ => false

/-- The destination lines that the arrival of source line i lets go at once. -/
def Block.letGo (b : Block) (i : Nat) : List Nat :=
  match b.kind with
  | .copy xf =>
    if xf = 8 || xf = 9 || xf = 10 then
      (List.range b.dstCount).filter (fun j => let w := b.needs j; w.1 ≤ i && i < w.1 + w.2 && b.hasAll j && !b.released.contains j)
    else if b.staging then [] else [i]
  | .tile .. => [i]
  | _ => []

/-- The line that arrives next: its data is there and its cycle has come. -/
def Block.arriving (b : Block) (now : Nat) : Option LineInFlight :=
  (b.srcs.filter (fun x => x.data.isSome && x.due ≤ now)).foldl (fun o x => match o with
    | none => some x
    | some y => if x.due < y.due || (x.due == y.due && x.idx < y.idx) then some x else o) none

/-- Packed line u of an indexed block. -/
def packedAt (base u : Nat) : Nat := base + 64 * u

/-- LINE_ARRIVAL (08 R204): a line reaches the stream engine; lines that need no more are released; with the last line of a tile its source range leaves (04 R101). -/
def execLineArrival (core : CoreId) (blk : Nat) (s : State) : Result :=
  match s.liveOf core, s.blockOf core blk with
  | some p, some b =>
    let now := (s.part p).now
    match b.arriving now with
    | none => .next s
    | some x =>
      let data := x.data.getD 0
      let s := s.modBlock core blk (fun b => { b with
        srcs := b.srcs.filter (fun y => y.idx != x.idx), staged := b.staged ++ [(x.idx, data)],
        arrived := b.arrived ++ [(x.idx, now)] })
      if b.indexed then
        .next (s.modBlock core blk (fun b => { b with outs := b.outs ++ [
          { idx := x.idx, addr := packedAt (dDst b.desc) x.idx, due := now + 1, data := data, late := x.late, stage := 0 }] }))
      else
        let b' := (s.blockOf core blk).getD b
        let s := (b'.letGo x.idx).foldl (fun s j => s.release core b' j now) s
        .next (if b.fromTile && b'.srcs.isEmpty && b'.access = b'.srcCount then s.leave core blk true else s)
  | _, _ => .next s

/-- The next destination line of a block that waits in staging: in order for transpositions (09 R221, R224), for MXS the first one whose release cycle has come (R228). -/
def Block.nextRelease (b : Block) (now : Nat) : Option Nat :=
  match b.kind with
  | .copy xf =>
    if xf = 5 then (List.range b.dstCount).find? (fun j => !b.released.contains j && b.hasAll j && b.lastArrival j + b.lagOf j ≤ now)
    else if b.released.length < b.dstCount && b.hasAll b.released.length then some b.released.length else none
  | _ => if b.released.length < b.dstCount && b.hasAll b.released.length then some b.released.length else none

/-- Releases the next line of a block in its cycle. -/
def State.releaseNext (s : State) (c : CoreId) (id : Nat) (f : Block → Bool) : State :=
  match s.liveOf c, s.blockOf c id with
  | some p, some b =>
    let now := (s.part p).now
    match b.nextRelease now with
    | some j =>
      if f b && b.lastArrival j + b.lagOf j ≤ now then s.release c b j now else s
    | none => s
  | _, _ => s

/-- TRANSPOSE_LINE_RELEASE (09 R222): destination line j of a tile is released at Z + 1 + j / n. -/
def execTransposeLineRelease (core : CoreId) (blk : Nat) (s : State) : Result :=
  .next (s.releaseNext core blk (fun b => match b.kind with | .copy xf => xf = 1 || xf = 2 || xf = 3 | _ => false))

/-- QUADRANT_LINE_RELEASE (09 R224). -/
def execQuadrantLineRelease (core : CoreId) (blk : Nat) (s : State) : Result :=
  .next (s.releaseNext core blk (fun b => match b.kind with | .sttx .. => true | _ => false))

/-- MXS_LINE_RELEASE (09 R228). -/
def execMxsLineRelease (core : CoreId) (blk : Nat) (s : State) : Result :=
  .next (s.releaseNext core blk (fun b => match b.kind with | .copy xf => xf = 5 | _ => false))

/-! ## Destinations (08 R204, R205, R211) -/

/-- A line that waits for its cycle here: not one that waits in a controller. -/
def LineOut.waits (o : LineOut) : Bool := o.stage == 0 || (o.stage == 1 && !isHbm o.addr)

/-- A late line whose place a later line of the block has already taken, or that would reach it after that line: the byte keeps the highest-numbered row (08 R201, 04 R100). -/
def Block.superseded (b : Block) (c : CoreId) (o : LineOut) : Bool :=
  o.late && !b.indexed && b.released.any (fun j => o.idx < j && b.dstAt c j == o.addr && !b.outs.any (fun x => x.idx == j && x.stage ≤ o.stage))

/-- A destination line in its cycle: written here, or on its way. -/
def State.performLine (s : State) (c : CoreId) (p : PartId) (b : Block) (o : LineOut) : State :=
  let now := (s.part p).now
  if b.superseded c o then s.lineDone c b.id o.idx else
  let send := fun (s : State) (due : Nat) => s.modBlock c b.id (fun b => { b with outs := b.outs.map (fun x =>
    if x.idx = o.idx then { x with stage := 1, due := due } else x) })
  match placeOf o.addr with
  | .slice k =>
    if k = c || o.stage = 1 then ((s.laterLine o.addr o.data).takeSlot p o.addr true).lineDone c b.id o.idx
    else send s (now + 4 * hops c k)
  | .tile .. => ((s.laterLine o.addr o.data).takeSlot p o.addr true).lineDone c b.id o.idx
  | _ =>
    send (s.sendHbm c (now + lq c (s.stackAt o.addr)) (b.place o.idx) (s.channel o.addr) (.write c b.id o.idx o.addr o.data)) 0

/-- LINE_WRITE (08 R204, R205): a destination line is written, sent, or, once its controller has finished it, counted. -/
def execLineWrite (core : CoreId) (blk : Nat) (s : State) : Result :=
  match s.liveOf core, s.blockOf core blk with
  | some p, some b =>
    let now := (s.part p).now
    match b.outs.find? (fun o => o.due ≤ now && (o.stage == 2 || (o.waits && !o.late && !b.indexed))) with
    | some o => if o.stage = 2 then .next (s.lineDone core blk o.idx) else .next (s.performLine core p b o)
    | none => .next s
  | _, _ => .next s

/-! ## Gather and scatter (09 R229-R234) -/

/-- Index lines of a block. -/
def Block.indexLines (b : Block) : Nat := (dNidx b.desc + 15) / 16
/-- IDX. -/
def Block.indexBase (b : Block) : Nat := fld b.xpar 47 0
/-- POL. -/
def Block.policy (b : Block) : Nat := fld b.xpar 59 58
/-- OP. -/
def Block.addOp (b : Block) : Nat := fld b.xpar 57 56

/-- INDEX_LINE_READ (09 R231): index line m is read in cycle P + 1 + m, a lagging block's in an idle slot. -/
def execIndexLineRead (core : CoreId) (blk : Nat) (ecc : EccResult) (s : State) : Result :=
  match s.liveOf core, s.blockOf core blk with
  | some p, some b =>
    let now := (s.part p).now
    let m := b.access
    let a := b.indexBase + 64 * m
    if b.indexed && m < b.indexLines && b.issued + 1 + m ≤ now && (!b.lag || s.slotIdle p a false) then
      .next (s.readFor core p b 0 a ecc (fun s => s.modBlock core blk (fun b => { b with
        access := m + 1, staged := b.staged ++ [(m, s.line a)], arrived := b.arrived ++ [(m, now)] })))
    else .next s
  | _, _ => .next s

/-- Index number e of a staged index line. -/
def indexOf (l : Line) (e : Nat) : BitVec 32 := l.extractLsb' (32 * (e % 16)) 32

/-- One index examined: in range, skipped, clamped, or the fault (none). -/
def examine (pol rows : Nat) (x : BitVec 32) : Option (Option (BitVec 32)) :=
  if 0 ≤ x.toInt && x.toInt < (rows : Int) then some (some x)
  else if pol = 1 then some none
  else if pol = 2 then some (some (if x.toInt < 0 then 0 else BitVec.ofNat 32 (rows - 1)))
  else none

/-- The examined indices of a line, up to the first fault: its position and value. -/
def examineAll (pol rows pos : Nat) : List (BitVec 32) → List (Option (BitVec 32)) × Option (Nat × BitVec 32)
  | [] => ([], none)
  | x :: xs =>
    match examine pol rows x with
    | none => ([], some (pos, x))
    | some r => let t := examineAll pol rows (pos + 1) xs; (r :: t.1, t.2)

/-- INDEX_EXAMINE (09 R231): 3 c after an index line's read its indices are examined in position order; a fault halts the core in flight with reason 0x0A. -/
def execIndexExamine (core : CoreId) (blk : Nat) (s : State) : Result :=
  match s.liveOf core, s.blockOf core blk with
  | some p, some b =>
    let m := b.indices.length / 16
    match b.arrived.find? (fun x => x.1 == m) with
    | some (_, t) =>
      if b.indexed && b.indices.length < dNidx b.desc && t + 3 ≤ (s.part p).now then
        let n := min 16 (dNidx b.desc - 16 * m)
        let xs := (List.range n).map (indexOf (b.got m))
        let rows := dSstr b.desc
        let r := examineAll b.policy rows (16 * m) xs
        match r.2 with
        | some (pos, x) =>
          .next (((s.haltBlock core b 0 0x0A (x.toNat * 2 ^ 32 + pos)).modBlock core blk (fun b => { b with arrived := [] })).modStr core
            (fun u => { u with sdesc := b.descAddr }))
        | none =>
          let skipped := (r.1.filter (fun x => x.isNone)).length
          let clamped := (xs.filter (fun x : BitVec 32 => !(0 ≤ x.toInt && x.toInt < (rows : Int)))).length - skipped
          let s := (s.modBlock core blk (fun b => { b with indices := b.indices ++ r.1 })).modStr core (fun u => { u with
            skipped := satAdd u.skipped skipped, clamped := satAdd u.clamped clamped })
          .next s
      else .next s
    | none => .next s
  | _, _ => .next s

/-- Collision cycles counted for a chain; past budget from the first cycle in which they exceed CBUD (09 R234). -/
def State.collide (s : State) (c : CoreId) (cid k : Nat) : State :=
  s.modStr c (fun u =>
    let passes := u.budgets.any (fun g => g.cid == cid && !g.past && g.cbud < g.sum + k)
    { u with
      coll := u.coll + BitVec.ofNat 64 k,
      overrun := if passes then satAdd u.overrun 1 else u.overrun,
      budgets := u.budgets.map (fun g =>
        if g.cid = cid then { g with sum := g.sum + k, past := g.past || decide (g.cbud < g.sum + k) } else g) })

/-- D of a block: the first cycle its data phase may begin (09 R232). -/
def Block.dataStart (b : Block) (path : Nat) : Nat := max (b.issued + 4 + b.indexLines) path

/-- The block whose turn it is: the first indexed block in issue order with turns left. -/
def StreamUnit.turning (u : StreamUnit) : Option Block := u.blocks.find? (fun b => b.indexed && b.turn < b.turns)

/-- The cycle in which the next turn of a block would come without a collision after the one before. -/
def StreamUnit.turnDue (u : StreamUnit) (b : Block) : Nat := if b.turn = 0 then b.dataStart u.path else b.lastTurn + 1

/-- An earlier write to a line is not yet performed or not yet visible (09 R233). -/
def State.pendingLine (s : State) (c : CoreId) (a : Nat) : Bool :=
  (s.core c).str.blocks.any (fun b => b.indexed && b.outs.any (fun o => o.addr == a)) || s.wbuf.any (fun e => e.1 == a)

/-- FP32 or I32 sum of two lines, word by word (09 R233; 06 R148, R158). -/
def addLines (op : Nat) (x y : Line) : Line :=
  bytesLine (((lineWords x).zip (lineWords y)).flatMap (fun w => leBytes 4 (if op = 1 then (f32.add w.1 w.2).1 else w.1 + w.2)))

/-- A turn is over: collision cycles, next turn, and once it is the last the path is free for the next block. -/
def State.turnOver (s : State) (c : CoreId) (b : Block) (now : Nat) : State :=
  let due := (s.core c).str.turnDue b
  ((s.collide c b.cid (now - due)).modBlock c b.id (fun b => { b with turn := b.turn + 1, lastTurn := now })).modStr c
    (fun u => { u with path := now + 1 })

/-- Adds a destination line of a turn. -/
def State.addOut (s : State) (c : CoreId) (id idx addr due : Nat) (data : Line) : State :=
  s.modBlock c id (fun b => { b with outs := b.outs ++ [{ idx := idx, addr := addr, due := due, data := data, late := false, stage := 0 }] })

/-- The line of a turn: every line of a lagging block counts as late (08 R211). -/
def State.turnLine (s : State) (c : CoreId) (b : Block) : State := if b.lag then s.countLate c else s

/-- A block whose last turn moved nothing may be complete. -/
def State.maybeFinish (s : State) (c : CoreId) (id : Nat) : State :=
  match s.blockOf c id with
  | some b => if b.finished then s.finishBlock c b else s
  | none => s

/-- GATHER_TURN (09 R232, R233): a line of the block on the indexed path takes its turn in the first cycle in which its reads find idle slots; the reads of a scatter add that share a bank group take successive cycles. ecc: what the checks of its reads find. -/
def execGatherTurn (core : CoreId) (blk : Nat) (ecc : TurnEcc) (s : State) : Result :=
  match s.liveOf core, (s.core core).str.turning with
  | some p, some b =>
    let now := (s.part p).now
    let u := b.turn
    let e := dRows b.desc
    if b.id ≠ blk || 2 ^ 40 ≤ b.access || b.indices.length < dNidx b.desc || now < (s.core core).str.turnDue b || now < (s.core core).str.path then .next s
    else
      match (b.indices.getD (u / max e 1) none) with
      | none =>
        if b.kind = .gather then
          .next (((s.turnLine core b).addOut core blk u (packedAt (dDst b.desc) u) (now + 3) 0).turnOver core b now)
        else .next ((s.turnOver core b now).maybeFinish core blk)
      | some x =>
        let row := 64 * (e * x.toNat + u % max e 1)
        if b.kind = .gather then
          let a := dSrc b.desc + row
          if isHbm a then
            let x := if (s.core core).str.excess then newLine u a now none true true else newLine u a (now + dRlat b.desc) none b.lag false
            let s := if x.unsent then s else s.request core now b u a
            let s := if x.late then s.countLate core else s
            .next ((s.modBlock core blk (fun b => { b with srcs := b.srcs ++ [x] })).turnOver core b now)
          else if s.slotIdle p a false then
            .next ((s.turnLine core b).readFor core p b u a ecc.table (fun s =>
              (s.addOut core blk u (packedAt (dDst b.desc) u) (now + 3) (s.line a)).turnOver core b now))
          else .next s
        else
          let pk := packedAt (dSrc b.desc) u
          let a := dDst b.desc + row
          if b.addOp = 0 then
            if s.slotIdle p pk false then
              .next ((s.turnLine core b).readFor core p b u pk ecc.packed (fun s => (s.addOut core blk u a (now + 3) (s.line pk)).turnOver core b now))
            else .next s
          else
            let key := 2 ^ 40 + u
            let half := b.staged.any (fun y => y.1 == key)
            if s.pendingLine core a then .next s
            else if half then
              if s.slotIdle p a false then
                .next (s.readFor core p b u a ecc.table (fun s =>
                  (s.addOut core blk u a (now + 3) (addLines b.addOp (s.line a) (b.got key))).turnOver core b now))
              else .next s
            else if bankGroup pk = bankGroup a then
              if s.slotIdle p pk false then
                .next ((s.turnLine core b).readFor core p b u pk ecc.packed (fun s =>
                  s.modBlock core blk (fun b => { b with staged := b.staged ++ [(key, s.line pk)] })))
              else .next s
            else if s.slotIdle p pk false && s.slotIdle p a false then
              .next ((s.turnLine core b).readFor core p b u pk ecc.packed (fun s => s.readFor core p b u a ecc.table (fun s =>
                (s.addOut core blk u a (now + 3) (addLines b.addOp (s.line a) (s.line pk))).turnOver core b now)))
            else .next s
  | _, _ => .next s

/-- INDEXED_WRITE (09 R232-R234): the first line of an indexed block that is due and waits behind no earlier write of its line takes an idle slot, or is sent to HBM in its cycle; cycles it waited for a slot are collision cycles. -/
def execIndexedWrite (core : CoreId) (blk : Nat) (s : State) : Result :=
  match s.liveOf core, s.blockOf core blk with
  | some p, some b =>
    let now := (s.part p).now
    let first := fun (o : LineOut) => !(s.core core).str.blocks.any (fun x => x.indexed && x.id ≤ blk &&
      x.outs.any (fun y => y.addr == o.addr && y.stage == 0 && (x.id < blk || y.idx < o.idx)))
    match b.outs.find? (fun o => b.indexed && !o.late && o.stage == 0 && o.due ≤ now && first o && s.slotIdle p o.addr true) with
    | some o => .next ((if isHbm o.addr then s else s.collide core b.cid (now - o.due)).performLine core p b o)
    | none => .next s
  | _, _ => .next s

/-! ## Late lines (08 R211) -/

/-- Whether a command would change a core's stream engine now. -/
def State.strMoves (s : State) (c : CoreId) (r : Result) : Bool :=
  match r with
  | .next t => (t.core c).str != (s.core c).str
  | _ => true

/-- The indexed path of the core that owns a slice has an access to make there now: it comes before late lines (09 R232). -/
def State.indexedFirst (s : State) (a : Nat) (write : Bool) : Bool :=
  match sliceOwner a with
  | some o =>
    if write then (s.core o).str.blocks.any (fun b => b.indexed && s.strMoves o (execIndexedWrite o b.id s))
    else match (s.core o).str.turning with
      | some b => s.strMoves o (execGatherTurn o b.id ⟨.clean, .clean⟩ s)
      | none => false
  | none => false

/-- A waiting line of a lagging block whose source can be accessed now. -/
def State.waitingLine (s : State) (c : CoreId) (p : PartId) (b : Block) : Option LineInFlight :=
  b.srcs.find? (fun x => x.unsent && !isHbm x.addr && s.lateFree c p x.addr false && !(sliceOwner x.addr == some c && s.indexedFirst x.addr false))

/-- LATE_SOURCE_ACCESS (08 R211): each source access of a lagging block is made in the first cycle, from its access cycle on, with an idle slot or bank, or free links; its remote read likewise. A line whose cycle has come and that finds none waits, and the lines after it go on. -/
def execLateSourceAccess (core : CoreId) (blk : Nat) (ecc : EccResult) (s : State) : Result :=
  match s.liveOf core, s.blockOf core blk with
  | some p, some b =>
    if !b.lag || b.indexed then .next s
    else
      let now := (s.part p).now
      match b.srcs.find? (fun x => x.data.isNone && !x.unsent && !isHbm x.addr && x.due ≤ now && s.slotIdle p x.addr false && !s.indexedFirst x.addr false),
          s.waitingLine core p b with
      | some x, _ => .next (s.remoteRead core p b x ecc)
      | none, some x => .next (s.accessWaiting core p b x ecc)
      | none, none =>
        if b.access < b.srcCount && b.issued + b.accessOf (s.planOf core) b.access ≤ now then
          match b.srcAt core b.access with
          | none => .next (s.accessLine core p b true ecc)
          | some a =>
            if isHbm a && s.lateFree core p a false then .next (s.accessLine core p b true ecc)
            else .next ((s.countLate core).addSrc core blk (newLine b.access a now none true true))
        else .next s
  | _, _ => .next s

/-- LATE_LINE_WRITE (08 R211): a late line takes the first idle write slot or tile bank, or free links, from its cycle on. -/
def execLateLineWrite (core : CoreId) (blk : Nat) (s : State) : Result :=
  match s.liveOf core, s.blockOf core blk with
  | some p, some b =>
    let now := (s.part p).now
    let free := fun (o : LineOut) => !s.indexedFirst o.addr true && (if o.stage = 1 then s.slotIdle p o.addr true else s.lateFree core p o.addr true)
    match b.outs.find? (fun o => o.late && o.waits && o.due ≤ now && free o) with
    | some o => .next ((s.takeWide core p o.addr).performLine core p b o)
    | none => .next s
  | _, _ => .next s

end Sys2Proof.Machine
end

