-- ==== Sys2Proof/Machine/Vector.lean ====
section
/-! DEFINITION. Vector.lean: the vector engine (07 R163-R184): checks of the vector slot, the value and flags of each instruction, results in flight, and the meanings of its commands. -/

namespace Sys2Proof.Machine

/-! ## Fields (07 R165) -/

/-- Opcode of a 64-bit slot. -/
def opc64 (bits : BitVec 64) : Nat := fld bits 63 56
/-- VD. -/
def vVd (w : BitVec 56) : Fin 32 := Fin.ofNat 32 (fld w 55 51)
/-- VA. -/
def vVa (w : BitVec 56) : Fin 32 := Fin.ofNat 32 (fld w 50 46)
/-- VB. -/
def vVb (w : BitVec 56) : Fin 32 := Fin.ofNat 32 (fld w 45 41)
/-- VC. -/
def vVc (w : BitVec 56) : Fin 32 := Fin.ofNat 32 (fld w 40 36)
/-- SA. -/
def vSa (w : BitVec 56) : Bool := bit w 35
/-- TY. -/
def vTy (w : BitVec 56) : Nat := fld w 34 32
/-- MQ. -/
def vMq (w : BitVec 56) : Fin 8 := Fin.ofNat 8 (fld w 31 29)
/-- MK. -/
def vMk (w : BitVec 56) : Bool := bit w 28
/-- MZ. -/
def vMz (w : BitVec 56) : Bool := bit w 27
/-- SE. -/
def vSe (w : BitVec 56) : Bool := bit w 26
/-- SF. -/
def vSf (w : BitVec 56) : Nat := fld w 21 19
/-- FN. -/
def vFn (w : BitVec 56) : BitVec 7 := w.extractLsb' 0 7

/-- The address P[SP] + 64 * sext(SOFF), modulo 2^48 (R167). -/
def vAddr (u : ControlUnit) (w : BitVec 56) : Nat :=
  (u.p[Fin.ofNat 16 (fld w 25 22)] + (w.extractLsb' 7 12).signExtend 48 <<< 6).toNat

/-- Fields of an operation: destination, a, element type. -/
def fVd : List (Nat × Nat) := [(55, 51)]
/-- VA, SA, TY. -/
def fA : List (Nat × Nat) := [(50, 46), (35, 32)]
/-- VB. -/
def fB : List (Nat × Nat) := [(45, 41)]
/-- MQ, MK, MZ. -/
def fM : List (Nat × Nat) := [(31, 27)]
/-- SE, SP, SF, SOFF. -/
def fS : List (Nat × Nat) := [(26, 7)]
/-- FN. -/
def fF : List (Nat × Nat) := [(6, 0)]

/-- The field bits of each vector opcode; none: not defined (R165, R166). -/
def vecMask : Nat → Option (BitVec 56)
  | 0x00 => some 0
  | 0x01 => some (maskOf 56 (fVd ++ fA ++ fM ++ fS))
  | 0x02 => some (maskOf 56 [(55, 51), (31, 0)])
  | 0x03 => some (maskOf 56 (fVd ++ fA ++ fB ++ [(31, 29)] ++ fS))
  | 0x08 => some (maskOf 56 (fVd ++ fA ++ fB ++ fM ++ fS))
  | 0x09 => some (maskOf 56 (fVd ++ fA ++ fB ++ fM ++ fS))
  | 0x0A => some (maskOf 56 (fVd ++ fA ++ fB ++ fM ++ fS))
  | 0x0B => some (maskOf 56 (fVd ++ fA ++ fB ++ [(40, 36)] ++ fM ++ fS))
  | 0x0C => some (maskOf 56 (fVd ++ fA ++ fB ++ fM ++ fS))
  | 0x0D => some (maskOf 56 (fVd ++ fA ++ fB ++ fM ++ fS))
  | 0x0E => some (maskOf 56 (fVd ++ fA ++ fM ++ fS))
  | 0x0F => some (maskOf 56 (fVd ++ fA ++ fM ++ fS))
  | 0x10 => some (maskOf 56 (fVd ++ fA ++ fB ++ fM ++ fS))
  | 0x11 => some (maskOf 56 (fVd ++ fA ++ fB ++ fM ++ fS))
  | 0x12 => some (maskOf 56 (fVd ++ fA ++ fB ++ fM ++ fS))
  | 0x13 => some (maskOf 56 (fVd ++ fA ++ fB ++ fM ++ fS))
  | 0x14 => some (maskOf 56 (fVd ++ fA ++ fB ++ fM ++ fS))
  | 0x15 => some (maskOf 56 (fVd ++ fA ++ fB ++ fM ++ fS))
  | 0x18 => some (maskOf 56 ([(53, 51)] ++ fA ++ fB ++ fM ++ fF))
  | 0x19 => some (maskOf 56 ([(53, 51), (48, 46), (43, 41), (34, 32)] ++ fF))
  | 0x20 => some (maskOf 56 (fVd ++ fA ++ fB ++ fM ++ fS ++ fF))
  | 0x21 => some (maskOf 56 (fVd ++ fA ++ fB ++ fM ++ fS ++ fF))
  | 0x22 => some (maskOf 56 (fVd ++ fA ++ fM ++ fS ++ fF))
  | 0x28 => some (maskOf 56 (fVd ++ fA ++ fM ++ fS ++ fF))
  | 0x30 => some (maskOf 56 (fVd ++ fA ++ fM ++ fS ++ fF))
  | 0x38 => some (maskOf 56 (fVd ++ [(34, 32), (25, 7)] ++ fF))
  | 0x39 => some (maskOf 56 (fA ++ [(25, 7)] ++ fF))
  | 0x3C => some (maskOf 56 (fVd ++ [(34, 32)]))
  | 0x3D => some (maskOf 56 [(34, 32)])
  | _ => none

/-- The element types an opcode takes (R166). -/
def vecTypes : Nat → List Nat
  | 0x08 => [0, 1, 2, 3, 4, 5]
  | 0x09 => [0, 1, 2, 3, 4, 5]
  | 0x0A => [0, 1, 2, 3, 4, 5]
  | 0x0B => [0, 2, 3]
  | 0x0C => [0, 1, 2, 3, 4, 5]
  | 0x0D => [0, 1, 2, 3, 4, 5]
  | 0x0E => [0, 1, 2, 3, 4, 5]
  | 0x0F => [0, 1, 2, 3, 4, 5]
  | 0x10 => [1]
  | 0x11 => [1]
  | 0x12 => [1]
  | 0x13 => [1, 4, 5]
  | 0x14 => [1, 4, 5]
  | 0x15 => [1, 4, 5]
  | 0x18 => [0, 1]
  | 0x30 => [0, 1]
  | _ => [0]

/-- Whether a TY value names a float type. -/
def isFloat (ty : Nat) : Bool := ty == 0 || ty == 2 || ty == 3

/-- Result latency L (R166). -/
def vecLatency (opc ty : Nat) : Nat :=
  match opc with
  | 0x08 => if isFloat ty then 4 else 2
  | 0x09 => if isFloat ty then 4 else 2
  | 0x0A => if isFloat ty then 4 else 2
  | 0x0B => 4
  | 0x22 => 4
  | 0x28 => 8
  | 0x30 => 12
  | 0x38 => 4
  | _ => 2

/-- Whether an opcode may store through (R166). -/
def vecStores (opc : Nat) : Bool := !([0x00, 0x02, 0x18, 0x19, 0x38, 0x39, 0x3C, 0x3D].contains opc)

/-- The bit of FN that a reserved function value names; none: defined (R171, R176-R180, R182, R183). -/
def fnBad (opc ty sf : Nat) (fn : Nat) : List Nat :=
  let mid := if fn / 8 % 4 = 0 then [] else [if fn / 8 % 2 = 1 then 3 else 4]
  match opc with
  | 0x18 => if fn ≤ 5 || (fn = 6 && ty = 0) || (8 ≤ fn && fn ≤ 11 && ty = 1) then [] else [0]
  | 0x19 => if fn ≤ 6 then [] else [0]
  | 0x20 => if fn ≤ 7 then [] else [0]
  | 0x21 => (if fn % 8 ≤ 4 then [] else [0]) ++ mid
  | 0x22 => (if fn % 8 ≤ 4 then [] else [0]) ++ mid ++ (if fn / 32 = 0 then [5] else [])
  | 0x28 => (if fn % 8 ≤ 5 then [] else [0]) ++ (if fn / 32 % 4 = 0 then [] else [if fn / 32 % 2 = 1 then 5 else 6])
  | 0x30 =>
    (if fn % 4 ≤ 2 then [] else [0]) ++ (if fn / 4 % 4 = 0 then [] else [if fn / 4 % 2 = 1 then 2 else 3]) ++
    (if fn / 16 ≤ 4 then [] else [4])
  | 0x38 =>
    if 6 ≤ sf then (if fn % 32 = 0 then [] else [lowestBit (BitVec.ofNat 5 fn)]) ++ (if fn / 32 = 0 then [5] else [])
    else if sf = 2 || sf = 3 || sf = 5 then (if fn / 2 = 0 then [] else [1 + lowestBit (BitVec.ofNat 6 (fn / 2))])
    else (if fn = 0 then [] else [lowestBit (BitVec.ofNat 7 fn)])
  | 0x39 =>
    if 6 ≤ sf then (if fn % 32 = 0 then [] else [lowestBit (BitVec.ofNat 5 fn)]) ++ (if fn / 32 = 0 then [5] else [])
    else (if fn = 0 then [] else [lowestBit (BitVec.ofNat 7 fn)])
  | _ => []

/-! ## Checks -/

/-- Slot positions of reserved bits and values of a vector instruction. -/
def vecBad (opc : Nat) (w mask : BitVec 56) : List Nat :=
  let bad := w &&& ~~~mask
  (if bad = 0 then [] else [lowestBit bad]) ++
  (if opc = 0x02 || (vecTypes opc).contains (vTy w) then [] else [32]) ++
  (if bit mask 35 && vSa w && (vVa w).val ≠ 0 then [46 + lowestBit (w.extractLsb' 46 5)] else []) ++
  (fnBad opc (vTy w) (vSf w) (vFn w).toNat) ++
  (if vecStores opc && vSe w && 6 ≤ vSf w && opc ≠ 0x22 then [19] else [])

/-- The access of a vector instruction: its address and bytes, whether it writes, cycles after issue (R168, R184). -/
def vecAccess (u : ControlUnit) (opc : Nat) (w : BitVec 56) : Option (Nat × Nat × Bool × Nat) :=
  let a := vAddr u w
  let n := formBytes (vSf w)
  if opc = 0x38 then some (a, n, false, 1)
  else if opc = 0x39 then some (a, n, true, 1)
  else if vecStores opc && vSe w then some (a, n, true, vecLatency opc (vTy w))
  else none

/-- The claims of a vector access. An access whose address is misaligned or outside the own slice claims its ports too (DEDUCED, log 85). -/
def vecClaims (c : CoreId) (count : Nat) (x : Nat × Nat × Bool × Nat) : List Claim :=
  (List.range (x.2.1 / 64)).map (fun i =>
    if x.2.2.1 then writeClaim c (x.1 + 64 * i) (count + x.2.2.2) else readClaim c (x.1 + 64 * i) (count + x.2.2.2))

/-- The issue count of a core's partition. -/
def State.countOf (s : State) (c : CoreId) : Nat := match s.partOf c with | some p => (s.part p).count | none => 0

/-- The causes to halt that the vector slot raises by itself, in its own order (R166, R167). -/
def State.vecCauses (s : State) (c : CoreId) (bits : BitVec 64) : List Cause :=
  let w := bits.extractLsb' 0 56
  let opc := opc64 bits
  let k := s.core c
  match vecMask opc with
  | none => [Cause.opcode 3 opc]
  | some m =>
    (match leastOf (vecBad opc w m) with | some i => [Cause.reserved 3 (256 + i)] | none => []) ++
    match vecAccess k.ctl opc w with
    | none => []
    | some x =>
      (match (s.claim c (s.slotPlanner c 3) (vecClaims c (s.countOf c) x)).1 with | some d => [⟨4, 3, 0x10, d⟩] | none => []) ++
      (if x.1 % 64 ≠ 0 then [Cause.check 3 0x04 x.1] else []) ++
      (match least (firstOutside (s.ownRanges c) x.1 x.2.1) (s.firstCode c x.2.2.1 x.1 x.2.1) with | some a => [Cause.check 3 0x05 a] | none => []) ++
      (match k.str.pendingAt x.1 x.2.1 with | some a => [Cause.check 3 0x06 a] | none => [])

/-! ## Elements (R164, R172-R176) -/

/-- Width of an element type. -/
def tyBits : Nat → Nat
  | 2 => 16
  | 3 => 16
  | 4 => 16
  | 5 => 8
  | _ => 32

/-- The format of a float type. -/
def tyFmt : Nat → Fmt
  | 2 => bf16
  | 3 => f16
  | _ => f32

/-- An integer operation on elements of n bits (R166, R172). -/
def intOp (opc n a b : Nat) : Nat :=
  let m := 2 ^ n
  match opc with
  | 0x08 => (a + b) % m
  | 0x09 => (a + m - b) % m
  | 0x0A => a * b % m
  | 0x0C => if sext n a ≤ sext n b then a else b
  | 0x0D => if sext n a ≤ sext n b then b else a
  | 0x0E => if sext n a < 0 then (m - a) % m else a
  | 0x0F => (m - a) % m
  | 0x10 => a &&& b
  | 0x11 => a ||| b
  | 0x12 => a ^^^ b
  | 0x13 => a * 2 ^ (b % n) % m
  | 0x14 => a / 2 ^ (b % n)
  | 0x15 => (sext n a / 2 ^ (b % n) % m).toNat
  | _ => a

/-- A floating operation on elements and its flags (R166, R173). -/
def floatOp (opc : Nat) (f : Fmt) (a b c : Nat) : Nat × Nat :=
  match opc with
  | 0x08 => f.add a b
  | 0x09 => f.sub a b
  | 0x0A => f.mul a b
  | 0x0B => f.fma a b c
  | 0x0C => f.minimum a b
  | 0x0D => f.maximum a b
  | 0x0E => (a % f.signBit, 0)
  | 0x0F => (if a < f.signBit then a + f.signBit else a - f.signBit, 0)
  | _ => (a, 0)

/-- One lane of an elementwise operation: value and flags. -/
def laneOp (opc ty a b c : Nat) : Nat × Nat :=
  let n := tyBits ty
  let parts := ((subLanes n a).zip ((subLanes n b).zip (subLanes n c))).map (fun x =>
    if isFloat ty then floatOp opc (tyFmt ty) x.1 x.2.1 x.2.2 else (intOp opc n x.1 x.2.1, 0))
  (ofSubLanes n (parts.map Prod.fst), parts.foldl (fun f x => f ||| x.2) 0)

/-- VCMP of one lane: condition and flags (R176). -/
def cmpOp (fn ty a b : Nat) : Bool × Nat :=
  if ty = 1 then
    let x := sext 32 a
    let y := sext 32 b
    (match fn with
     | 0 => a == b
     | 1 => a != b
     | 2 => x < y
     | 3 => x ≤ y
     | 4 => y < x
     | 5 => y ≤ x
     | 8 => a < b
     | 9 => a ≤ b
     | 10 => b < a
     | _ => b ≤ a, 0)
  else
    let x := f32.dec a
    let y := f32.dec b
    let un := x.isNan || y.isNan
    match fn with
    | 0 => (x.eq y, 0)
    | 1 => (!x.eq y, 0)
    | 2 => (!un && x.lt y, if un then fIV else 0)
    | 3 => (!un && (x.lt y || x.eq y), if un then fIV else 0)
    | 4 => (!un && y.lt x, if un then fIV else 0)
    | 5 => (!un && (y.lt x || x.eq y), if un then fIV else 0)
    | _ => (un, 0)

/-- VCVT of one lane (R177). -/
def cvtOp (fn a b : Nat) : Nat × Nat :=
  match fn with
  | 0 => cvt bf16 f32 (a % 65536)
  | 1 => cvt bf16 f32 (a / 65536)
  | 2 => cvt f16 f32 (a % 65536)
  | 3 => cvt f16 f32 (a / 65536)
  | 4 => let x := cvt f32 bf16 a; let y := cvt f32 bf16 b; (x.1 + 65536 * y.1, x.2 ||| y.2)
  | 5 => let x := cvt f32 f16 a; let y := cvt f32 f16 b; (x.1 + 65536 * y.1, x.2 ||| y.2)
  | 6 => i32ToF32 (BitVec.ofNat 32 a)
  | _ => f32ToI32 a

/-- Element format of FN[2:0] (R178). -/
def fnElem : Nat → Elem
  | 0 => .e4m3
  | 1 => .e5m2
  | 2 => .fp4
  | 3 => .i8
  | _ => .i4

/-- A special function of one lane (R180, R181). -/
def sfOp (fn a : Nat) : Nat × Nat :=
  match fn with
  | 0 => rcpF32 a
  | 1 => rsqrtF32 a
  | 2 => sqrtF32 a
  | 3 => exp2F32 a
  | 4 => log2F32 a
  | _ => tanhF32 a

/-- QOP (R171). -/
def qopOf (fn : Nat) (a b : BitVec 512) : BitVec 512 :=
  match fn with
  | 0 => a &&& b
  | 1 => a ||| b
  | 2 => a ^^^ b
  | 3 => a &&& ~~~b
  | 4 => ~~~a
  | 5 => BitVec.allOnes 512
  | _ => 0

/-! ## Reductions (R182) -/

/-- One level of the reduction tree. -/
def redLevel (f : Nat → Nat → Nat × Nat) : List Nat → List Nat × Nat
  | x :: y :: rest => let r := f x y; let t := redLevel f rest; (r.1 :: t.1, r.2 ||| t.2)
  | _ => ([], 0)

/-- n levels. -/
def redTree (f : Nat → Nat → Nat × Nat) : Nat → List Nat → Nat × Nat
  | 0, xs => (xs.getD 0 0, 0)
  | n + 1, xs => let l := redLevel f xs; let t := redTree f n l.1; (t.1, l.2 ||| t.2)

/-- The operation of VRED: 0 sum, 1 maximum, 2 minimum. -/
def redOp (ty op : Nat) (x y : Nat) : Nat × Nat :=
  if ty = 0 then (match op with | 0 => f32.add x y | 1 => f32.maximum x y | _ => f32.minimum x y)
  else (match op with | 0 => (x + y) % 2 ^ 32 | 1 => intOp 0x0D 32 x y | _ => intOp 0x0C 32 x y, 0)

/-- What an inactive lane contributes. -/
def redIdentity (ty op : Nat) : Nat :=
  match ty, op with
  | 0, 0 => 0x80000000
  | 0, 1 => 0xFF800000
  | 0, _ => 0x7F800000
  | _, 0 => 0
  | _, 1 => 0x80000000
  | _, _ => 0x7FFFFFFF

/-! ## Results -/

/-- The drain input: 128 lanes of each engine, zero where it presents nothing (R170). -/
def Core.drainInput (k : Core) : List Nat :=
  k.mx.toList.flatMap (fun m => match m.present with
    | some ch => (List.range 128).map (fun l => (ch.extractLsb' (32 * l) 32).toNat)
    | none => List.replicate 128 0)

/-- Operand a. -/
def Core.operandA (k : Core) (w : BitVec 56) : List Nat := if vSa w then k.drainInput else lanes k.vec.v[vVa w]

/-- Lane results with flags: values, the lanes' own flags. -/
structure LaneResult where
  vals : List Nat
  flags : List Nat

/-- A result from pairs. -/
def LaneResult.of (l : List (Nat × Nat)) : LaneResult := { vals := l.map Prod.fst, flags := l.map Prod.snd }

/-- VQG's lanes: each group of G takes one scale (R179). -/
def quantGroups (f : Elem) (g : Nat) (vs : List Nat) : List (Nat × Nat) :=
  (List.range (512 / max g 1)).flatMap (fun j =>
    let grp := (vs.drop (g * j)).take g
    let e := chooseScale f grp
    grp.map (fun v => let r := encodeElem f v e; (r.1 + 256 * e, r.2)))

/-- VRED's lanes. -/
def reduceGroups (ty op lg : Nat) (vs : List Nat) : List (Nat × Nat) :=
  let g := 32 * 2 ^ lg
  (List.range (512 / g)).flatMap (fun j =>
    let r := redTree (redOp ty op) (5 + lg) ((vs.drop (g * j)).take g)
    List.replicate g r)

/-- The lanes an instruction computes, its mask aside. -/
def Core.vecLanes (k : Core) (opc : Nat) (w : BitVec 56) : LaneResult :=
  let a := k.operandA w
  let b := lanes k.vec.v[vVb w]
  let fn := (vFn w).toNat
  let ty := vTy w
  let active := fun (l : Nat) => !vMk w || bit k.vec.q[vMq w] l
  match opc with
  | 0x01 => .of (a.map (fun x => (x, 0)))
  | 0x02 => .of (List.replicate 512 (fld w 31 0, 0))
  | 0x03 => .of ((a.zip b).zipIdx.map (fun x => (if bit k.vec.q[vMq w] x.2 then x.1.1 else x.1.2, 0)))
  | 0x20 => .of ((a.zip b).map (fun x => cvtOp fn x.1 x.2))
  | 0x21 =>
    let f := fnElem (fn % 8)
    let g := groupOf (fn / 32)
    let scales := regBytes k.vec.v[vVb w]
    .of (a.zipIdx.map (fun x => dequant f (x.1 % 256) (if g = 0 then x.1 / 256 % 256 else (byteAt scales (x.2 / g)).toNat)))
  | 0x22 => .of (quantGroups (fnElem (fn % 8)) (groupOf (fn / 32)) a)
  | 0x28 => .of (a.map (sfOp (fn % 8)))
  | 0x30 => .of (reduceGroups ty (fn % 4) (fn / 16) (a.zipIdx.map (fun x => if active x.2 then x.1 else redIdentity ty (fn % 4))))
  | 0x3C => .of (List.replicate 512 (k.vec.flags.toNat, 0))
  | _ => .of ((a.zip (b.zip (lanes k.vec.v[vVc w]))).map (fun x => laneOp opc ty x.1 x.2.1 x.2.2))

/-- Union of the flags of the lanes that raise them. -/
def flagUnion (l : List Nat) : BitVec 5 := BitVec.ofNat 5 (l.foldl (fun f x => f ||| x) 0)

/-- The pending result of an instruction that writes a vector register. -/
def Core.vecResult (k : Core) (opc : Nat) (w : BitVec 56) (count : Nat) : VPending :=
  let r := k.vecLanes opc w
  let masked := vMk w && opc != 0x02 && opc != 0x03 && opc != 0x3C
  let active := fun (l : Nat) => !masked || bit k.vec.q[vMq w] l
  let mine := fun (l : Nat) => opc != 0x28 || l / 128 == fld w 4 3
  let written := (List.range 512).map (fun l => mine l && (active l || vMz w))
  { due := count + vecLatency opc (vTy w),
    dest := .reg (vVd w) (ofLanes (r.vals.zipIdx.map (fun x => if active x.2 then x.1 else 0))) (ofBools written),
    flags := flagUnion (r.flags.zipIdx.map (fun x => if mine x.2 && (active x.2 || opc == 0x30) then x.1 else 0)),
    through := if vecStores opc && vSe w then some (BitVec.ofNat 48 (vAddr k.ctl w), BitVec.ofNat 3 (vSf w), vFn w) else none,
    bundle := k.ctl.pc }

/-- The pending result of VCMP. -/
def Core.cmpResult (k : Core) (w : BitVec 56) (count : Nat) : VPending :=
  let r := ((k.operandA w).zip (lanes k.vec.v[vVb w])).map (fun x => cmpOp (vFn w).toNat (vTy w) x.1 x.2)
  let active := fun (l : Nat) => !vMk w || bit k.vec.q[vMq w] l
  { due := count + 2,
    dest := .pred (Fin.ofNat 8 (fld w 53 51)) (ofBools (r.zipIdx.map (fun x => x.1.1 && active x.2)))
      (ofBools ((List.range 512).map (fun l => active l || vMz w))),
    flags := flagUnion (r.zipIdx.map (fun x => if active x.2 then x.1.2 else 0)), through := none, bundle := k.ctl.pc }

/-- The lines of a list of bytes. -/
def linesOf (b : List Byte) : List Line := (List.range (b.length / 64)).map (fun i => bytesLine ((b.drop (64 * i)).take 64))

/-- The result a vector instruction puts in flight; none for one that has none. -/
def Core.vecPending (k : Core) (opc : Nat) (w : BitVec 56) (count : Nat) : Option VPending :=
  match opc with
  | 0x00 => none
  | 0x3D => none
  | 0x18 => some (k.cmpResult w count)
  | 0x19 => some { due := count + 2, flags := 0, through := none, bundle := k.ctl.pc,
                   dest := .pred (Fin.ofNat 8 (fld w 53 51))
                     (qopOf (vFn w).toNat k.vec.q[Fin.ofNat 8 (fld w 48 46)] k.vec.q[Fin.ofNat 8 (fld w 43 41)]) (BitVec.allOnes 512) }
  | 0x38 => some { due := count + 1, flags := 0, through := none, bundle := k.ctl.pc,
                   dest := .load (vVd w) (BitVec.ofNat 48 (vAddr k.ctl w)) (BitVec.ofNat 3 (vSf w)) (vFn w) }
  | 0x39 => some { due := count + 1, flags := 0, through := none, bundle := k.ctl.pc,
                   dest := .store (BitVec.ofNat 48 (vAddr k.ctl w))
                     (linesOf (storeBytes (vSf w) (vFn w) (ofLanes (k.operandA w)))) }
  | _ => some (k.vecResult opc w count)

/-- The vector slot's effect: its result in flight, its accesses claimed; VFLGC clears the flags at once (R175). -/
def State.vecOp (s : State) (c : CoreId) (bits : BitVec 64) : State :=
  let w := bits.extractLsb' 0 56
  let opc := opc64 bits
  let k := s.core c
  let count := s.countOf c
  let s := match vecAccess k.ctl opc w with
    | some x => (s.claim c (s.slotPlanner c 3) (vecClaims c count x)).2
    | none => s
  match opc with
  | 0x3D => s.modVec c (fun v => { v with flags := 0 })
  | _ =>
    match k.vecPending opc w count with
    | some x => s.modVec c (fun v => { v with pend := v.pend ++ [x] })
    | none => s

/-- A vector-slot instruction by itself. -/
def issueVector (c : CoreId) (opc : BitVec 8) (w : BitVec 56) (s : State) : Result :=
  let bits : BitVec 64 := opc ++ w
  issueSlot c (s.vecCauses c bits) (fun s => s.vecOp c bits) s

/-! ## Results reaching their destination (R168, R169, R175, R184) -/

/-- The lanes that a load of a form writes: others keep their bytes (R183). -/
def formLanes (form : Nat) : BitVec 512 :=
  match form with
  | 0 => ofBools ((List.range 512).map (fun l => l < 256))
  | 1 => ofBools ((List.range 512).map (fun l => 256 ≤ l))
  | 4 => ofBools ((List.range 512).map (fun l => l < 16))
  | _ => BitVec.allOnes 512

/-- A mask with one bit per lane spread over the lanes' bits. -/
def spread (m : BitVec 512) : BitVec 16384 := ofLanes ((List.range 512).map (fun l => if bit m l then 2 ^ 32 - 1 else 0))

/-- Lanes replaced under a mask. -/
def mergeLanes (old new : BitVec 16384) (m : BitVec 512) : BitVec 16384 := (old &&& ~~~spread m) ||| (new &&& spread m)

/-- Lines stored at ascending addresses. -/
def State.laterLines (s : State) (a : Nat) (l : List Line) : State :=
  (l.zipIdx).foldl (fun s x => s.laterLine (a + 64 * x.2) x.1) s

/-- What the environment's list of failing checks says of a line. -/
def errAt (errs : List (Nat × EccResult)) (a : Nat) : EccResult :=
  match errs.find? (fun e => e.1 == a) with | some e => e.2 | none => .clean

/-- Reads of lines: counted; the first uncorrectable line, if any (04 R86, R88). -/
def State.readLines (s : State) (errs : List (Nat × EccResult)) (as : List Nat) : State × Option Nat :=
  as.foldl (fun r a => (r.1.countEcc a (errAt errs a),
    match r.2 with
    | some x => some x
    | none => if (r.1.found a (errAt errs a)).failed then some a else none)) (s, none)

/-- A pending result performed. A store-through stores its register after its own write and before a later result that reaches it in the same cycle (DESIGN CHOICE, log 95). -/
def State.landVector (s : State) (c : CoreId) (x : VPending) (errs : List (Nat × EccResult)) : State :=
  let s := s.modVec c (fun v => { v with flags := v.flags ||| x.flags })
  match x.dest with
  | .reg vd value mask =>
    let v := mergeLanes (s.core c).vec.v[vd] value mask
    let s := s.modVec c (fun u => { u with v := u.v.set vd v })
    match x.through with
    | some (a, form, fn) => s.laterLines a.toNat (linesOf (storeBytes form.toNat fn v))
    | none => s
  | .pred qd value mask => s.modVec c (fun u => { u with q := u.q.set qd ((u.q[qd] &&& ~~~mask) ||| (value &&& mask)) })
  | .line vd ln value => s.modVec c (fun u => { u with v := u.v.set vd (setRegLine u.v[vd] ln.val value) })
  | .store a ls => s.laterLines a.toNat ls
  | .load vd a form fn =>
    let n := formBytes form.toNat
    match s.readLines errs ((List.range (n / 64)).map (fun i => a.toNat + 64 * i)) with
    | (s, some bad) => s.haltCore c true 3 0x0C x.bundle bad
    | (s, none) => s.modVec c (fun u => { u with pend := u.pend ++ [{ x with
        due := x.due + 3, dest := .reg vd (loadReg form.toNat fn 0 (memReadBytes s.mem a.toNat n)) (formLanes form.toNat) }] })

/-- VECTOR_RESULT_WRITE (07 R168): the oldest result due at the issue count at hand reaches its register, or the slice; a load's slice read is performed. The pipelines stand in a hold (02 R36). -/
def execVectorResultWrite (core : CoreId) (errs : List (Nat × EccResult)) (s : State) : Result :=
  match s.partOf core with
  | none => .next s
  | some p =>
    let q := s.part p
    if q.issuing && !q.cycDone then
      match (s.core core).vec.pend.find? (fun x => x.due ≤ q.icount.toNat) with
      | some x => .next ((s.modVec core (fun v => { v with pend := v.pend.erase x })).landVector core x errs)
      | none => .next s
    else .next s

/-! ## Meanings of the vector-slot commands -/

/-- VMOV (R166). -/
def execVmov (core : CoreId) (w : BitVec 56) (s : State) : Result := issueVector core 0x01 w s
/-- VMOVI (R166). -/
def execVmovi (core : CoreId) (w : BitVec 56) (s : State) : Result := issueVector core 0x02 w s
/-- VSEL (R166). -/
def execVsel (core : CoreId) (w : BitVec 56) (s : State) : Result := issueVector core 0x03 w s
/-- VADD (R173). -/
def execVadd (core : CoreId) (w : BitVec 56) (s : State) : Result := issueVector core 0x08 w s
/-- VSUB (R173). -/
def execVsub (core : CoreId) (w : BitVec 56) (s : State) : Result := issueVector core 0x09 w s
/-- VMUL (R173). -/
def execVmul (core : CoreId) (w : BitVec 56) (s : State) : Result := issueVector core 0x0A w s
/-- VFMA (R173). -/
def execVfma (core : CoreId) (w : BitVec 56) (s : State) : Result := issueVector core 0x0B w s
/-- VMIN (R173). -/
def execVmin (core : CoreId) (w : BitVec 56) (s : State) : Result := issueVector core 0x0C w s
/-- VMAX (R173). -/
def execVmax (core : CoreId) (w : BitVec 56) (s : State) : Result := issueVector core 0x0D w s
/-- VABS (R173). -/
def execVabs (core : CoreId) (w : BitVec 56) (s : State) : Result := issueVector core 0x0E w s
/-- VNEG (R173). -/
def execVneg (core : CoreId) (w : BitVec 56) (s : State) : Result := issueVector core 0x0F w s
/-- VAND (R166). -/
def execVand (core : CoreId) (w : BitVec 56) (s : State) : Result := issueVector core 0x10 w s
/-- VOR (R166). -/
def execVor (core : CoreId) (w : BitVec 56) (s : State) : Result := issueVector core 0x11 w s
/-- VXOR (R166). -/
def execVxor (core : CoreId) (w : BitVec 56) (s : State) : Result := issueVector core 0x12 w s
/-- VSHL (R172). -/
def execVshl (core : CoreId) (w : BitVec 56) (s : State) : Result := issueVector core 0x13 w s
/-- VSHR (R172). -/
def execVshr (core : CoreId) (w : BitVec 56) (s : State) : Result := issueVector core 0x14 w s
/-- VSRA (R172). -/
def execVsra (core : CoreId) (w : BitVec 56) (s : State) : Result := issueVector core 0x15 w s
/-- VCMP (R176). -/
def execVcmp (core : CoreId) (w : BitVec 56) (s : State) : Result := issueVector core 0x18 w s
/-- QOP (R171). -/
def execQop (core : CoreId) (w : BitVec 56) (s : State) : Result := issueVector core 0x19 w s
/-- VCVT (R177). -/
def execVcvt (core : CoreId) (w : BitVec 56) (s : State) : Result := issueVector core 0x20 w s
/-- VDQ (R178). -/
def execVdq (core : CoreId) (w : BitVec 56) (s : State) : Result := issueVector core 0x21 w s
/-- VQG (R179). -/
def execVqg (core : CoreId) (w : BitVec 56) (s : State) : Result := issueVector core 0x22 w s
/-- VSF (R180). -/
def execVsf (core : CoreId) (w : BitVec 56) (s : State) : Result := issueVector core 0x28 w s
/-- VRED (R182). -/
def execVred (core : CoreId) (w : BitVec 56) (s : State) : Result := issueVector core 0x30 w s
/-- VLD (R183). -/
def execVld (core : CoreId) (w : BitVec 56) (s : State) : Result := issueVector core 0x38 w s
/-- VST (R183). -/
def execVst (core : CoreId) (w : BitVec 56) (s : State) : Result := issueVector core 0x39 w s
/-- VFLGR (R175). -/
def execVflgr (core : CoreId) (w : BitVec 56) (s : State) : Result := issueVector core 0x3C w s
/-- VFLGC (R175). -/
def execVflgc (core : CoreId) (w : BitVec 56) (s : State) : Result := issueVector core 0x3D w s

end Sys2Proof.Machine
end

