-- ==== Sys2Proof/Machine/Matrix.lean ====
section
/-! DEFINITION. Matrix.lean: the matrix engines (05): the slot's fields and checks, operand reads cycle by cycle, products and group sums, the accumulators, the requantisation latch and the drain path, and the meanings of their commands. -/

namespace Sys2Proof.Machine

/-! ## Bank claims (04 R97, R98) -/

/-- The bank claims of an operation; wide ports claim none (04 R104). -/
def State.mmaClaims (s : State) (c : CoreId) (e : EngId) (x : MmaForm) (w : BitVec 56) (p f count : Nat) : List Claim :=
  let k := s.core c
  if x.legacy then []
  else
    let ws := s.tileWrites c e
    let st := (k.mx[e]).readsAhead k.cfg c e ws count
    ((List.range (busyCycles f x w)).foldl (fun st y => (tileReads k.cfg e x w f y).foldl (ReadsAhead.read c e ws (p + y)) st)
      { st with claims := [] }).claims

/-- The claims of MRQL: the banks of 16 lines per cycle in s + 1 to s + 4 (R134), or in legacy mode its first eight accesses of W2 and W3 after s (R141, 04 R104). -/
def mrqlClaims (legacy : Bool) (c : CoreId) (e : EngId) (w : BitVec 56) (count : Nat) : List Claim :=
  if legacy then ((List.range 16).filter (fun i => 2 ≤ (count + 1 + i) % 4)).map (fun i => wideClaim c e (fld w 55 52) (count + 1 + i) 0)
  else (List.range 64).map (fun i => bankRead c e (fld w 55 52) (64 * fld w 51 50 + i) (count + 1 + i / 16))

/-! ## Checks (R113, R114, R117, R136, R140) -/

/-- The field bits of an MMA-family instruction that its opcode and settings use. -/
def mmaMask (x : MmaForm) (w : BitVec 56) : BitVec 56 :=
  maskOf 56 ([(55, 48), (43, 28), (19, 10), (6, 5)] ++
    (if x.isSparse || mScaled x w then [(47, 44), (27, 20)] else []) ++
    (if x.fa.wide || x.legacy then [] else [(9, 8)]) ++
    (if x.isComplex then [] else [(7, 7)]) ++
    (if mPen w then [(4, 2)] else []) ++
    (if x.legacy then [] else [(1, 1)]))

/-- Detail of reason 0x03 (R114). -/
def tilePair (a b : Nat) : Nat := a % 16 + 16 * (b % 16)

/-- The first of the optional details. -/
def firstDetail : List (Option Nat) → Option Nat
  | [] => none
  | some d :: _ => some d
  | none :: l => firstDetail l

/-- Check 7 for one span: none when it passes. The imaginary tile of a complex operand past T15 gives 0xFF as a scale tile does (DEDUCED, log 86). -/
def spanCheck (x : MmaForm) (r : Nat × Nat × Nat × Nat) : Option Nat :=
  let (kind, t, pos, n) := r
  if 15 < t then some 0xFF
  else if 2 ≤ kind || x.isComplex then (if 16384 < pos + n then some (tilePair t t) else none)
  else if 262144 < 16384 * t + pos + n then some (tilePair t 15) else none

/-- Check 8 for one span of the stream that starts in tile first: the first tile of another shape. The imaginary part of a complex operand belongs to its stream (DEDUCED, log 86). -/
def shapeCheck (g : CoreConfig) (e : EngId) (first : Nat) (r : Nat × Nat × Nat × Nat) : Option Nat :=
  let (kind, t, pos, n) := r
  if 2 ≤ kind || n = 0 then none
  else (((List.range 16).filter (fun u => t ≤ u && u ≤ t + (pos + n - 1) / 16384)).find? (fun u =>
    g.shape e (Fin.ofNat 16 u) != g.shape e (Fin.ofNat 16 first))).map (fun u => tilePair first u)

/-- Whether every byte of a line has k set bits (R129). -/
def population (l : Line) (k : Nat) : Bool :=
  (lineBytes l).all (fun b => ((List.range 8).filter (fun i => bit b i)).length == k)

/-- Check 9: the alias of the lowest metadata line of another population. -/
def State.metadataCheck (s : State) (c : CoreId) (e : EngId) (x : MmaForm) (w : BitVec 56) : Option Nat :=
  if x.isSparse then
    ((List.range (2 * mBlocks x w)).map (fun i => tileAlias c e (mTs w) (mLs w + i))).find? (fun a => !population (s.line a) x.keep)
  else none

/-- A check of reason 0x03 as causes. -/
def shapeCause (slot : Nat) (d : Option Nat) : List Cause :=
  match d with | some d => [Cause.check slot 0x03 d] | none => []

/-- The remaining checks of an MMA-family instruction, in order, pending ranges last; of several streams that fail one check the detail names the first of A, B, scales, metadata (DESIGN CHOICE, log 95). -/
def State.mmaChecks (s : State) (c : CoreId) (e : EngId) (x : MmaForm) (w : BitVec 56) : List Cause :=
  let slot := 4 + e.val
  let k := s.core c
  let g := k.cfg
  let ta := mTa w
  let tb := mTb w
  let both := tilePair ta tb
  let spans := mmaSpans g e x w
  (if mKcy w = 0 then [Cause.check slot 0x0D (64 * e.val + 12)] else []) ++
  (if (x.isSparse || x.legacy) && mShp w ≠ 0 then [Cause.check slot 0x03 both] else []) ++
  (if x.isSparse then
    (if g.shape e (Fin.ofNat 16 ta) ≠ 0 then [Cause.check slot 0x03 (tilePair ta ta)] else []) ++
    (if g.shape e (Fin.ofNat 16 tb) ≠ 0 then [Cause.check slot 0x03 (tilePair tb tb)] else []) ++
    (if 128 < mKcy w then [Cause.check slot 0x03 both] else []) else []) ++
  (if x.mixed && mKcy w % 2 = 1 then [Cause.check slot 0x03 both] else []) ++
  (if mLa w % rowLines (g.shape e (Fin.ofNat 16 ta)) ≠ 0 then [Cause.check slot 0x03 (tilePair ta ta)] else []) ++
  (if mLb w % rowLines (g.shape e (Fin.ofNat 16 tb)) ≠ 0 then [Cause.check slot 0x03 (tilePair tb tb)] else []) ++
  (if mScaled x w && mK x w % mGroup x w ≠ 0 then [Cause.check slot 0x03 both] else []) ++
  shapeCause slot (firstDetail (spans.map (spanCheck x))) ++
  shapeCause slot (firstDetail (spans.map (fun r => shapeCheck g e (if r.1 = 0 then ta else tb) r))) ++
  (match s.metadataCheck c e x w with | some a => [Cause.check slot 0x11 a] | none => []) ++
  (match (spans.filter (fun r => r.2.2.2 ≠ 0)).foldl (fun b r =>
      least b (k.str.pendingAt (tileAlias c e 0 0 + (16384 * r.2.1 + r.2.2.1) / 64 * 64)
        (r.2.2.1 % 64 + r.2.2.2))) none with
   | some a => [Cause.check slot 0x06 a]
   | none => [])

/-- The conflicts of an MMA-family instruction, in the row order of R117. -/
def State.mmaConflicts (s : State) (c : CoreId) (e : EngId) (x : MmaForm) (w : BitVec 56) : List Cause :=
  let slot := 4 + e.val
  let m := (s.core c).mx[e]
  let count := s.countOf c
  let f := readFactor (s.core c).cfg e x w
  let p := firstRead x.legacy count
  let drained := fun (acc : Bool) => match writeWindow x w p f acc with
    | some win => m.drains.any (fun d => d.acs == acc && windowsMeet win (d.d + 1, d.d + 127))
    | none => false
  (match (s.claim c (s.slotPlanner c slot) (s.mmaClaims c e x w p f count)).1 with | some d => [⟨4, slot, 0x10, d⟩] | none => []) ++
  (if drained false then [Cause.conflict slot 8 (0x40 + 2 * e.val)] else []) ++
  (if drained true then [Cause.conflict slot 8 (0x41 + 2 * e.val)] else []) ++
  (if m.ops.any (fun o => p < o.p + o.t) then [Cause.conflict slot 8 (0x48 + e.val)] else [])

/-- The causes to halt that a matrix slot raises by itself. -/
def State.mxCauses (s : State) (c : CoreId) (e : EngId) (bits : BitVec 64) : List Cause :=
  let w := bits.extractLsb' 0 56
  let opc := opc64 bits
  let slot := 4 + e.val
  let k := s.core c
  let m := k.mx[e]
  let count := s.countOf c
  match opc with
  | 0x00 => reservedBits slot (64 * e.val) w 0
  | 0x01 =>
    let q := fld w 54 52
    let win := (count + 1, count + 127)
    reservedBits slot (64 * e.val) w (maskOf 56 [(55, 50)]) ++
    -- QG as a whole: its lowest bit, in a Q mode and in another (R419; DEDUCED, log 80)
    (if (4 ≤ q) == (fld w 51 50 == 0) then [Cause.reserved slot (64 * e.val + 50)] else []) ++
    (if m.ops.any (fun o => match writeWindow o.form o.w o.p o.f (bit w 55) with | some x => windowsMeet x win | none => false)
     then [Cause.conflict slot 8 (0x40 + 2 * e.val + (bit w 55).toNat)] else []) ++
    (if m.drains.any (fun d => count < d.d + 128) then [Cause.conflict slot 8 (0x4C + e.val)] else []) ++
    (if m.mrql.any (fun r => count ≤ r.s + (if k.cfg.legacy then 14 else 3)) then [Cause.conflict slot 8 (0x50 + e.val)] else [])
  | 0x02 =>
    let base := tileAlias c e (fld w 55 52) (64 * fld w 51 50)
    reservedBits slot (64 * e.val) w (maskOf 56 [(55, 50)]) ++
    (match (s.claim c (s.slotPlanner c slot) (mrqlClaims k.cfg.legacy c e w count)).1 with
     | some d => [⟨4, slot, 0x10, d⟩]
     | none => []) ++
    (if m.drains.any (fun d => count ≤ d.d + (if k.cfg.legacy then 129 else 128)) then [Cause.conflict slot 8 (0x50 + e.val)] else []) ++
    (match k.str.pendingAt base 4096 with | some a => [Cause.check slot 0x06 a] | none => [])
  | _ =>
    match mmaForm opc with
    | none => [Cause.opcode slot opc]
    | some x =>
      reservedBits slot (64 * e.val) w (mmaMask x w) ++
      (if x.legacy != k.cfg.legacy then [Cause.port slot opc] else s.mmaConflicts c e x w) ++
      s.mmaChecks c e x w

/-! ## Effects at issue -/

/-- The matrix slot's effect: an operation, a drain or a latch load in flight; shapes (R135) and bank claims taken. -/
def State.mxOp (s : State) (c : CoreId) (e : EngId) (bits : BitVec 64) : State :=
  let w := bits.extractLsb' 0 56
  let opc := opc64 bits
  let k := s.core c
  let count := s.countOf c
  match opc with
  | 0x00 => s
  | 0x01 =>
    let m := k.mx[e]
    let shp := if bit w 55 then m.shp1.getD 0 else m.shp0.getD 0
    s.modMx c e (fun m => { m with drains := m.drains ++ [
      { d := count, acs := bit w 55, mode := w.extractLsb' 52 3, qg := w.extractLsb' 50 2, shp := shp, chunks := [] }] })
  | 0x02 =>
    let s := (s.claim c (s.slotPlanner c (4 + e.val)) (mrqlClaims k.cfg.legacy c e w count)).2
    s.modMx c e (fun m => { m with mrql := m.mrql ++ [
      { s := count, tq := Fin.ofNat 16 (fld w 55 52), blk := w.extractLsb' 50 2, bundle := k.ctl.pc }] })
  | _ =>
    match mmaForm opc with
    | none => s
    | some x =>
      let f := readFactor k.cfg e x w
      let p := firstRead x.legacy count
      let s := (s.claim c (s.slotPlanner c (4 + e.val)) (s.mmaClaims c e x w p f count)).2
      let exec := !mPen w || k.ctl.k[(Fin.ofNat 4 (fld w 3 2) : Fin 4)] == bit w 4
      let shp := w.extractLsb' 10 2
      s.modMx c e (fun m => { m with
        ops := m.ops ++ [{ opc := BitVec.ofNat 8 opc, w := w, bundle := k.ctl.pc, p := p, f := f, passes := x.passes, exec := exec,
                           next := 0, a := [], b := [], sa := [], sb := [], md := [] }]
        shp0 := if x.isComplex || !mAcs w then some shp else m.shp0
        shp1 := if x.isComplex || mAcs w then some shp else m.shp1 })

/-- A matrix-slot instruction by itself. -/
def issueMatrix (c : CoreId) (e : EngId) (opc : BitVec 8) (w : BitVec 56) (s : State) : Result :=
  let bits : BitVec 64 := opc ++ w
  issueSlot c (s.mxCauses c e bits) (fun s => s.mxOp c e bits) s

/-! ## Reading operands (R98, R99, R116, R141) -/

/-- Bytes added to what is kept under a k-cycle. -/
def keepBytes {n : Nat} (l : List (Nat × BitVec n)) (key off : Nat) (b : List Byte) : List (Nat × BitVec n) :=
  let new := BitVec.ofNat n (leNat b) <<< (8 * off)
  if l.any (fun x => x.1 == key) then l.map (fun x => if x.1 = key then (key, x.2 ||| new) else x) else l ++ [(key, new)]

/-- An operation with one read's bytes. -/
def MmaOp.take (o : MmaOp) (r : TileRead) (b : List Byte) : MmaOp :=
  match r.kind with
  | 0 => { o with a := keepBytes o.a r.key r.off b }
  | 1 => { o with b := keepBytes o.b r.key r.off b }
  | 2 => { o with sa := keepBytes o.sa r.key 0 b }
  | 3 => { o with sb := keepBytes o.sb r.key 0 b }
  | _ => { o with md := keepBytes o.md r.key 0 b }

/-- The reads of an operation at issue count x: through the banks one cycle's rows, through the wide ports four cycles' rows of A two cycles and of B one cycle ahead (R141). -/
def MmaOp.readsAt (o : MmaOp) (g : CoreConfig) (e : EngId) (x : Nat) : List TileRead :=
  let at_ := fun (y : Nat) => if y < o.t then tileReads g e o.form o.w o.f y else []
  if o.form.legacy then
    (if o.p ≤ x + 2 && (x + 2 - o.p) % 4 = 0 then
      (List.range 4).flatMap (fun i => (at_ (x + 2 - o.p + i)).filter (fun r => r.kind == 0)) else []) ++
    (if o.p ≤ x + 1 && (x + 1 - o.p) % 4 = 0 then
      (List.range 4).flatMap (fun i => (at_ (x + 1 - o.p + i)).filter (fun r => r.kind == 1)) else [])
  else if o.p ≤ x then at_ (x - o.p) else []

/-- Whether a read hits its reuse latch (04 R98). -/
def MatrixEngine.hits (m : MatrixEngine) (legacy : Bool) (r : TileRead) : Bool :=
  !legacy && ((r.kind == 0 && m.reuseA == some r.row) || (r.kind == 1 && m.reuseB == some r.row))

/-- The latches after a bank read of an operand. -/
def MatrixEngine.latched (m : MatrixEngine) (r : TileRead) : MatrixEngine :=
  match r.kind with
  | 0 => { m with reuseA := some r.row }
  | 1 => { m with reuseB := some r.row }
  | _ => m

/-- A windows of the cell rows after a sparse operation's A bytes of a block (R106, R128). -/
def rowWindows (o : MmaOp) (key : Nat) (old : Vector (BitVec 64) 128) : Vector (BitVec 64) 128 :=
  match o.a.find? (fun x => x.1 == key) with
  | none => old
  | some blk =>
    Vector.ofFn (fun m : Fin 128 => BitVec.ofNat 64 (leNat ((List.range 8).map (fun t =>
      if o.form.fa.four then
        BitVec.ofNat 8 ((blk.2.extractLsb' (8 * (t / 2 * 128 + m.val)) 8).toNat / 16 ^ (t % 2) % 16)
      else blk.2.extractLsb' (8 * (t * 128 + m.val)) 8))))

/-- One read performed: checked unless the latch supplies it, kept in its operation; an uncorrectable word halts the core in flight (04 R102). -/
def State.tileRead (s : State) (c : CoreId) (e : EngId) (errs : List (Nat × EccResult)) (i : Nat) (r : TileRead) : State :=
  let k := s.core c
  let m := k.mx[e]
  match m.ops[i]? with
  | none => s
  | some o =>
    let base := tileAlias c e 0 0
    let o' := o.take r (memReadBytes s.mem (base + r.pos) r.len)
    let hit := m.hits o.form.legacy r
    let s := s.modMx c e (fun m =>
      let m := { m with
        ops := m.ops.set i o'
        window := if o.form.isSparse && r.kind = 0 then rowWindows o' r.key m.window else m.window }
      if hit || o.form.legacy then m else m.latched r)
    if hit then s
    else
      match s.readLines errs ((List.range r.lines).map (fun j => base + 64 * (r.first + j))) with
      | (s, some bad) => s.haltCore c true (4 + e.val) 0x0C o.bundle bad
      | (s, none) => s

/-! ## Zero-block gating (R130-R133) -/

/-- Whether 16 elements from one on are all zero bytes in k-cycle cc of an operand, imag tiles on. -/
def State.zeroSlice (s : State) (c : CoreId) (e : EngId) (o : OpStream) (bytes imag cc i : Nat) : Bool :=
  (memReadBytes s.mem (tileAlias c e 0 0 + 16384 * (o.tile + imag) + o.pos cc + bytes * i) (16 * bytes)).all (fun b => b == 0)

/-- Whether a block's A slice or B slice is zero in cycle y of an operation. -/
def State.zeroBlock (s : State) (c : CoreId) (e : EngId) (o : MmaOp) (y k : Nat) : Bool :=
  let x := o.form
  let g := (s.core c).cfg
  let pass := y / o.f / mKcy o.w
  let cc := y / o.f % mKcy o.w
  let i := 16 * (k / 8)
  let j := 16 * (k % 8)
  let m := match mShp o.w with | 0 => i | 1 => i % 64 | 2 => i + 128 * (j / 64) | _ => i % 32
  let n := match mShp o.w with | 0 => j | 1 => j + 128 * (i / 64) | 2 => j % 64 | _ => j + 128 * (i / 32)
  s.zeroSlice c e (streamA g e x o.w) x.fa.bytes (imagA x pass) cc m || s.zeroSlice c e (streamB g e x o.w) x.fb.bytes (imagB x pass) cc n

/-- The blocks eligible for gating in cycle y of an operation (R131): all of a predicated-off one; with ZG, of one that is not sparse, those with a zero slice (dense as R113 uses the word; DESIGN CHOICE, log 77). -/
def State.eligible (s : State) (c : CoreId) (e : EngId) (o : MmaOp) (y : Nat) : BitVec 64 :=
  if o.t ≤ y then 0
  else if !o.exec then BitVec.allOnes 64
  else if !o.form.isSparse && !o.form.legacy && bit o.w 1 then
    BitVec.ofNat 64 ((List.range 64).foldl (fun n k => if s.zeroBlock c e o y k then n + 2 ^ k else n) 0)
  else 0

/-- The blocks that may be gated in cycle y: none in cycle p, none in p + T (R132). -/
def State.mayGate (s : State) (c : CoreId) (e : EngId) (o : MmaOp) (y : Nat) : BitVec 64 :=
  if y = 0 then 0 else s.eligible c e o y

/-- Number of 1 bits. -/
def ones (x : BitVec 64) : Nat := ((List.range 64).filter (fun i => bit x i)).length

/-- Blocks gated in cycle y of a predicated-off operation with T = 128 (R132). -/
def gateRamp (t y : Nat) : Nat := min 64 (min (4 * y) (4 * (t - y)))

/-- The blocks that may stay gated from now on until each of the cycles of a list: those that may be gated in all of them. -/
def gatedUntil : List (BitVec 64) → List (BitVec 64)
  | [] => []
  | x :: l => x :: (gatedUntil l).map (fun y => x &&& y)

/-- The bounds of R132 on a choice: only blocks that may be gated now, at most 4 changes, and the blocks that must be ungated by each cycle to come few enough to be so at 4 a cycle; ramp: the number that R132 states. -/
def gateFits (old : BitVec 64) (may : List (BitVec 64)) (ramp : Option Nat) (new : BitVec 64) : Bool :=
  ones (old ^^^ new) ≤ 4 && (gatedUntil may).zipIdx.all (fun x => ones (new &&& ~~~x.1) ≤ 4 * x.2) &&
  (match ramp with | some n => ones new == n | none => true)

/-- The lowest k blocks of a set. -/
def lowestOnes (x : BitVec 64) (k : Nat) : BitVec 64 :=
  BitVec.ofNat 64 ((((List.range 64).filter (fun i => bit x i)).take k).foldl (fun n i => n + 2 ^ i) 0)

/-- Without a choice that fits: nothing more is gated than a ramp asks for, and blocks are ungated as late as the bounds allow, lowest number first. -/
def gateFallback (old : BitVec 64) (may : List (BitVec 64)) (ramp : Option Nat) : BitVec 64 :=
  match ramp with
  | some n => if n ≤ ones old then old &&& ~~~lowestOnes old (ones old - n) else old ||| lowestOnes (~~~old) (n - ones old)
  | none => (gatedUntil may).zipIdx.foldl (fun g x =>
      let extra := g &&& ~~~x.1
      g &&& ~~~lowestOnes extra (ones extra - 4 * x.2)) old

/-- The gated blocks of the next cycle: the part's choice where it keeps the bounds (R132). may: the blocks that may be gated in this cycle and the next sixteen. -/
def gateNext (old : BitVec 64) (may : List (BitVec 64)) (ramp : Option Nat) : BitVec 64 :=
  if may.headD 0 = 0 then 0
  else
    let new := Config.gateChoice old may
    if gateFits old may ramp new then new else gateFallback old may ramp

/-- KCYC, ZBLK and the gated blocks in cycle y of an operation (R132, R133). -/
def State.countGating (s : State) (c : CoreId) (e : EngId) (o : MmaOp) (y : Nat) : State :=
  let z := ones (s.eligible c e o y)
  let may := (List.range 17).map (fun d => s.mayGate c e o (y + d))
  let ramp := if !o.exec && o.t = 128 then some (gateRamp o.t y) else none
  s.modMx c e (fun m => { m with kcyc := m.kcyc + 1, zblk := m.zblk + BitVec.ofNat 64 z, gated := gateNext m.gated may ramp })

/-! ## Products (R118-R125) -/

/-- Exact zero. -/
def Fp.zero : Fp := .fin false 0 0

/-- A product in the array: a zero element gives +0 (R121). -/
def arrayMul (a b : Fp) : Fp := if a.isZero || b.isZero then Fp.zero else (a.mul b).1

/-- Value of a code in an array format. -/
def ArrFmt.val (f : ArrFmt) (code : Nat) : Fp :=
  match f with
  | .el f => f.val code
  | .bf => bf16.dec code
  | .half => f16.dec code
  | .single => f32.dec code

/-- Limb k of a finite element (R123, R124). -/
def limb (f : ArrFmt) (k : Nat) (m : Nat) (e : Int) : Nat × Int :=
  match f with
  | .half => if k = 0 then (m % 8, e) else (m / 8, e + 3)
  | .single => (m / 2 ^ (8 * k) % 256, e + 8 * (k : Int))
  | _ => (m, e)

/-- The limbs of A and B in a pass. -/
def passLimbs (f : ArrFmt) (pass : Nat) : Nat × Nat :=
  match f with
  | .half => (pass / 2, pass % 2)
  | .single => [(0, 0), (0, 1), (1, 0), (0, 2), (1, 1), (2, 0), (1, 2), (2, 1), (2, 2)].getD pass (2, 2)
  | _ => (0, 0)

/-- The product that a pass of a BF16, FP16 or FP32 operation adds: specials in the last pass only (R122-R124). -/
def wideProduct (f : ArrFmt) (pass passes : Nat) (a b : Nat) : Fp :=
  match f.val a, f.val b with
  | .fin na ma ea, .fin nb mb eb =>
    let k := passLimbs f pass
    let x := limb f k.1 ma ea
    let y := limb f k.2 mb eb
    if x.1 * y.1 = 0 then Fp.zero else .fin (na != nb) (x.1 * y.1) (x.2 + y.2)
  | x, y => if pass + 1 = passes then arrayMul x y else Fp.zero

/-- One rounded add into an entry (R119, R121). -/
def entryAdd (entry : Nat) (x : Fp) : Nat := (f32.enc ((f32.dec entry).add x).1).1

/-- An empty group partial. -/
def Partial.zero : Partial := { sum := 0, special := 0 }

/-- Infinities and NaN in a group partial: opposite infinities and NaN make NaN (R121). -/
def Partial.mark (p : Partial) (k : BitVec 2) : Partial :=
  { p with special := if p.special = 0 || p.special = k then k else 3 }

/-- A group partial with one more exact product, in units of 2^u (R119, R120). -/
def Partial.add (u : Int) (p : Partial) (x : Fp) : Partial :=
  match x with
  | .nan => p.mark 3
  | .inf n => p.mark (if n then 2 else 1)
  | .fin n m e =>
    let v : Int := m * 2 ^ (e - u).toNat
    { p with sum := p.sum + BitVec.ofInt 72 (if n then -v else v) }

/-- The value of a group partial. -/
def Partial.value (u : Int) (p : Partial) : Fp :=
  match p.special.toNat with
  | 0 => .fin (p.sum.toInt < 0) p.sum.toInt.natAbs u
  | 1 => .inf false
  | 2 => .inf true
  | _ => .nan

/-- The unit of an operation's group partials. -/
def partialUnit (fa fb : Elem) : Int := fa.unit + fb.unit

/-- A group partial after the products of one k-cycle, in ascending k. -/
def Partial.addAll (fa fb : Elem) (p : Partial) (ps : List (Nat × Nat)) : Partial :=
  ps.foldl (fun p x => p.add (partialUnit fa fb) (arrayMul (fa.val x.1) (fb.val x.2))) p

/-- A group partial scaled; a NaN scale makes NaN (R119, R121). neg: pass 2 of a complex operation. -/
def groupValue (fa fb : Elem) (sa sb : Nat) (neg : Bool) (p : Fp) : Fp :=
  if sa = 0xFF || sb = 0xFF then .nan
  else
    let x := p.scale (fa.fexp + fb.fexp + (sa : Int) - 127 + (sb : Int) - 127)
    if neg && !x.isZero then x.neg else x

/-- The integer value of a code. -/
def ArrFmt.int (f : ArrFmt) (code : Nat) : Int :=
  match f with
  | .el f => sext f.bits code
  | _ => 0

/-! ## Operands of a k-cycle -/

/-- What is kept under a k-cycle. -/
def keptAt {n : Nat} (l : List (Nat × BitVec n)) (key : Nat) : BitVec n :=
  match l.find? (fun x => x.1 == key) with | some x => x.2 | none => 0

/-- Code of element j of k-step i of a k-cycle; par: the k-cycle's parity, which names the nibble of a shared k-pair. -/
def elemCode (f : ArrFmt) (pair : Bool) (v : BitVec 16384) (par i j : Nat) : Nat :=
  if f.four then (v.extractLsb' (8 * j) 8).toNat / 16 ^ (if pair then par else i) % 16
  else leNat ((List.range f.bytes).map (fun b => v.extractLsb' (8 * (j * f.bytes + b)) 8))

/-- The codes of element j over k-cycles, in ascending k. -/
def MmaOp.column (o : MmaOp) (st : OpStream) (f : ArrFmt) (l : List (Nat × BitVec 16384)) (cs : List Nat) (j : Nat) : List Nat :=
  cs.flatMap (fun c => (List.range o.form.s).map (fun i =>
    elemCode f st.pair (keptAt l (st.key o.f c)) (c % mKcy o.w % 2) i j))

/-- The k-step of its block that slot j of a column keeps (R127). -/
def keptStep (md : BitVec 8) (j : Nat) : Nat := ((List.range 8).filter (fun t => bit md t)).getD j 0

/-- The pairs of codes that output (m, n) of a sparse operation multiplies over k-cycles (R126-R128). -/
def MmaOp.sparsePairs (o : MmaOp) (st : OpStream) (cs : List Nat) (m n : Nat) : List (Nat × Nat) :=
  let x := o.form
  cs.flatMap (fun c => (List.range x.s).map (fun i =>
    let slot := x.s * c + i
    let key := slot / x.keep * x.perBlock
    let t := keptStep ((keptAt o.md key).extractLsb' (8 * n) 8) (slot % x.keep)
    let a := keptAt o.a key
    let code := if x.fa.four then (a.extractLsb' (8 * (t / 2 * 128 + m)) 8).toNat / 16 ^ (t % 2) % 16
      else (a.extractLsb' (8 * (t * 128 + m)) 8).toNat
    (code, elemCode x.fb st.pair (keptAt o.b (st.key o.f c)) (c % 2) i n)))

/-- The pairs of codes of every output in the order of the accumulator's entries (R108), over k-cycles. -/
def MmaOp.pairs (o : MmaOp) (g : CoreConfig) (e : EngId) (cs : List Nat) : List (List (Nat × Nat)) :=
  let a := streamA g e o.form o.w
  let b := streamB g e o.form o.w
  if o.form.isSparse then
    (List.range a.len).flatMap (fun m => (List.range b.len).map (fun n => o.sparsePairs b cs m n))
  else
    let as_ := (List.range a.len).map (fun m => o.column a o.form.fa o.a cs m)
    let bs := (List.range b.len).map (fun n => o.column b o.form.fb o.b cs n)
    as_.flatMap (fun x => bs.map (fun y => x.zip y))

/-! ## Accumulator writes (R115, R116) -/

/-- The entries of an accumulator. -/
def entriesOf (a : BitVec 524288) : List Nat := (List.range 16384).map (fun e => (a.extractLsb' (32 * e) 32).toNat)

/-- An accumulator from its entries. -/
def ofEntries (l : List Nat) : BitVec 524288 := BitVec.ofNat 524288 (l.foldr (fun x n => x % 2 ^ 32 + 2 ^ 32 * n) 0)

/-- First k-cycle of the group of k-cycle c: c itself without groups (R119). -/
def MmaOp.groupStart (o : MmaOp) (c : Nat) : Nat :=
  let x := o.form
  let kcy := mKcy o.w
  let grp := mGroup x o.w
  if grp = 0 then c else c / kcy * kcy + (c % kcy * x.s * x.q) / grp * grp / (x.s * x.q)

/-- Whether k-cycle c ends a group or its pass: an operation that forms groups writes then, scaled or not (DEDUCED, log 86). -/
def MmaOp.groupEnd (o : MmaOp) (c : Nat) : Bool :=
  let x := o.form
  let kcy := mKcy o.w
  let grp := mGroup x o.w
  grp == 0 || ((c % kcy + 1) * x.s * x.q) % grp == 0 || c % kcy + 1 == kcy

/-- The accumulator of a pass (R125). -/
def MmaOp.target (o : MmaOp) (pass : Nat) : Bool := if o.form.isComplex then 2 ≤ pass else mAcs o.w

/-- Whether ACCUM applies to the write at the end of k-cycle c: the accumulator's first. -/
def MmaOp.firstWrite (o : MmaOp) (c : Nat) : Bool :=
  let pass := c / mKcy o.w
  o.groupStart c % mKcy o.w = 0 && (pass = 0 || (o.form.isComplex && pass = 2))

/-- An entry after the products of its output in a k-cycle of an operation without groups (R118, R122). -/
def MmaOp.newEntry (o : MmaOp) (pass : Nat) (entry : Nat) (ps : List (Nat × Nat)) : Nat :=
  let x := o.form
  let neg := x.isComplex && pass == 1
  match x.fa, x.fb with
  | .el _, .el _ =>
    let d : Int := (ps.map (fun p => x.fa.int p.1 * x.fb.int p.2)).sum
    (((entry : Int) + (if neg then -d else d)) % 2 ^ 32).toNat
  | f, _ => ps.foldl (fun en p => entryAdd en (wideProduct f pass o.passes p.1 p.2)) entry

/-- The group partials after k-cycle c (R119); an operation without groups has none. -/
def MmaOp.partials (o : MmaOp) (g : CoreConfig) (e : EngId) (c : Nat) (old : List Partial) : List Partial :=
  match o.form.fa, o.form.fb with
  | .el fa, .el fb =>
    if mGroup o.form o.w = 0 || !o.exec then []
    else
      let old := if o.groupStart c = c || old.isEmpty then List.replicate 16384 Partial.zero else old
      (old.zip (o.pairs g e [c])).map (fun r => r.1.addAll fa fb r.2)
  | _, _ => []

/-- The entry of output (m, n) after the group that ends at k-cycle c: one rounding (R119). -/
def MmaOp.addGroup (o : MmaOp) (fa fb : Elem) (pass sa sb entry : Nat) (p : Partial) : Nat :=
  entryAdd entry (groupValue fa fb sa sb (o.form.isComplex && pass == 1) (p.value (partialUnit fa fb)))

/-- The accumulator's entries after the write at the end of k-cycle c, whose groups have the given partials. -/
def MmaOp.writeEntries (o : MmaOp) (g : CoreConfig) (e : EngId) (c : Nat) (group : List Partial) (old : List Nat) : List Nat :=
  let x := o.form
  let pass := c / mKcy o.w
  let start := if o.firstWrite c && !mAccum o.w then List.replicate 16384 0 else old
  if !o.exec then start
  else
    match x.fa, x.fb, group with
    | .el fa, .el fb, p :: ps =>
      let n := shpN (mShp o.w)
      let sa := keptAt o.sa (o.groupStart c)
      let sb := keptAt o.sb (o.groupStart c)
      ((start.zip (p :: ps)).zipIdx).map (fun r =>
        o.addGroup fa fb pass (if mScaled x o.w then (sa.extractLsb' (8 * (r.2 / n)) 8).toNat else 127)
          (if mScaled x o.w then (sb.extractLsb' (8 * (r.2 % n)) 8).toNat else 127) r.1.1 r.1.2)
    | _, _, _ => (start.zip (o.pairs g e [c])).map (fun r => o.newEntry pass r.1 r.2)

/-- An operation after the write of k-cycle c: operands no longer needed are dropped. -/
def MmaOp.written (o : MmaOp) (c : Nat) : MmaOp :=
  let block := (c + 1) / o.form.perBlock * o.form.perBlock
  let low := if o.form.mixed then (c + 1) / 2 * 2 else c + 1
  { o with
    next := c + 1
    a := o.a.filter (fun x => (if o.form.isSparse then block else low) ≤ x.1)
    b := o.b.filter (fun x => low ≤ x.1)
    sa := if o.groupEnd c then o.sa.filter (fun x => c < x.1) else o.sa
    sb := if o.groupEnd c then o.sb.filter (fun x => c < x.1) else o.sb
    md := o.md.filter (fun x => block ≤ x.1) }

/-- The engine after the end of its oldest operation's next k-cycle: its products are in the group partials, and, where a group ends, in the accumulator. -/
def MatrixEngine.writeNext (g : CoreConfig) (e : EngId) (m : MatrixEngine) : MatrixEngine :=
  match m.ops with
  | [] => m
  | o :: rest =>
    let c := o.next
    let acc := o.target (c / mKcy o.w)
    let group := o.partials g e c m.group
    let m := if o.groupEnd c then
        (if acc then { m with acc1 := ofEntries (o.writeEntries g e c group (entriesOf m.acc1)), group := [] }
         else { m with acc0 := ofEntries (o.writeEntries g e c group (entriesOf m.acc0)), group := [] })
      else { m with group := group }
    { m with ops := if c + 1 = o.passes * mKcy o.w then rest else o.written c :: rest }

/-- The issue count at which the oldest operation's next write falls (R116). -/
def MatrixEngine.nextWrite (m : MatrixEngine) : Option Nat :=
  match m.ops with
  | [] => none
  | o :: _ => some (o.p + (o.next + 1) * o.f + 5)

/-- ACC_WRITE (R116): the write of the oldest operation's next k-cycle, at its fixed latency and after every read of the cycle. -/
def execAccWrite (core : CoreId) (eng : EngId) (s : State) : Result :=
  match s.partOf core with
  | none => .next s
  | some p =>
    let q := s.part p
    match ((s.core core).mx[eng]).nextWrite with
    | some d =>
      if q.live && q.cycDone && q.issued && d ≤ q.count then
        .next (s.modMx core eng (fun m => m.writeNext (s.core core).cfg eng))
      else .next s
    | none => .next s

/-! ## The requantisation latch and the drain path (R134-R140) -/

/-- Latch entry n: RNA, SHIFT, MULT (R135). -/
def latchEntry (l : BitVec 19968) (n : Nat) : Bool × Nat × Int :=
  let x := l.extractLsb' (39 * n) 39
  (bit x 38, fld x 37 32, sext 32 (fld x 31 0))

/-- The latch with eight entries of a line in place, from entry n on. -/
def latchLine (l : BitVec 19968) (n : Nat) (line : Line) : BitVec 19968 :=
  (List.range 8).foldl (fun l i =>
    (l &&& ~~~((BitVec.allOnes 39).setWidth 19968 <<< (39 * (n + i)))) |||
      ((line.extractLsb' (64 * i) 39).setWidth 19968 <<< (39 * (n + i)))) l

/-- The lines of its table that a latch load reads at issue count x: 16 a cycle, or the eight W2 and W3 accesses (R134, R141). -/
def MrqlOp.linesAt (r : MrqlOp) (legacy : Bool) (x : Nat) : List Nat :=
  if legacy then
    if r.s < x && x ≤ r.s + 16 && 2 ≤ x % 4 then
      let before := ((List.range 16).filter (fun i => r.s + 1 + i < x && 2 ≤ (r.s + 1 + i) % 4)).length
      (List.range 8).map (fun i => 8 * before + i)
    else []
  else if r.s < x && x ≤ r.s + 4 then (List.range 16).map (fun i => 16 * (x - r.s - 1) + i) else []

/-- requantise of R139. -/
def requantise (acc mult : Int) (shift : Nat) (rna : Bool) (lo hi : Int) : Int :=
  let p := acc * mult
  let q := if shift = 0 then p else
    let q := p / (2 ^ shift : Int)
    let r := p - q * 2 ^ shift
    let half : Int := 2 ^ (shift - 1)
    if half < r then q + 1
    else if r = half then (if rna then q + (if 0 < p then 1 else 0) else q + q % 2)
    else q
  min (max q lo) hi

/-- The element format of a Q mode. -/
def drainElem : Nat → Elem
  | 4 => .e4m3
  | 5 => .e5m2
  | 6 => .fp4
  | _ => .i8

/-- The lanes of chunk q by mode (R138). -/
def drainLanes (l : BitVec 19968) (mode qg shp q : Nat) (raw : List Nat) : List Nat :=
  let rq := fun (lo hi : Int) => raw.zipIdx.map (fun x =>
    let en := latchEntry l ((128 * q + x.2) % shpN shp)
    (requantise (sext 32 x.1) en.2.2 en.2.1 en.1 lo hi % 2 ^ 32).toNat)
  match mode with
  | 0 => raw
  | 1 => rq (-128) 127
  | 2 => rq (-8) 7
  | 3 => raw.map (fun v => (cvt f32 bf16 v).1)
  | _ =>
    let g := groupOf qg
    (List.range (128 / max g 1)).flatMap (fun j =>
      let grp := (raw.drop (g * j)).take g
      let e := chooseScale (drainElem mode) grp
      grp.map (fun v => (encodeElem (drainElem mode) v e).1 + 256 * e))

/-- The 128 values of a chunk. -/
def chunkValues (c : BitVec 4096) : List Nat := (List.range 128).map (fun i => (c.extractLsb' (32 * i) 32).toNat)

/-- A chunk from its values. -/
def ofChunk (l : List Nat) : BitVec 4096 := BitVec.ofNat 4096 (l.foldr (fun x n => x % 2 ^ 32 + 2 ^ 32 * n) 0)

/-- A drain's stages at issue count x: the chunk read in the cycle before becomes lane contents, the next chunk is read (R137). -/
def DrainOp.stage (m : MatrixEngine) (x : Nat) (d : DrainOp) : DrainOp :=
  let acc := if d.acs then m.acc1 else m.acc0
  let moved := d.chunks.map (fun ch =>
    if d.d + 2 + ch.1 = x then
      (ch.1, ofChunk (drainLanes m.latch d.mode.toNat d.qg.toNat d.shp.toNat ch.1 (chunkValues ch.2)))
    else ch)
  { d with chunks := if d.d < x && x ≤ d.d + 128 then moved ++ [(x - d.d - 1, acc.extractLsb' (4096 * (x - d.d - 1)) 4096)] else moved }

/-- The chunk of an engine to present at issue count x. -/
def MatrixEngine.chunkDue (m : MatrixEngine) (x : Nat) : Option (DrainOp × Nat × BitVec 4096) :=
  (m.drains.find? (fun d => d.chunks.any (fun ch => d.d + 4 + ch.1 == x))).bind (fun d =>
    (d.chunks.find? (fun ch => d.d + 4 + ch.1 == x)).map (fun ch => (d, ch.1, ch.2)))

/-- DRAIN_CHUNK_PRESENT (R137): the chunk due is on its lanes for the bundle of this cycle; the drain ends with its last. -/
def execDrainChunkPresent (core : CoreId) (eng : EngId) (s : State) : Result :=
  match s.partOf core with
  | none => .next s
  | some p =>
    let q := s.part p
    if q.issuing && !q.cycDone then
      match ((s.core core).mx[eng]).chunkDue q.icount.toNat with
      | some (d, n, ch) => .next (s.modMx core eng (fun m => { m with
          present := some ch
          drains := if n = 127 then m.drains.erase d
            else m.drains.map (fun x => if x = d then { x with chunks := x.chunks.filter (fun y => y.1 != n) } else x) }))
      | none => .next s
    else .next s

/-! ## One cycle of the engines -/

/-- One latch load at issue count x: its lines read; their entries take effect in the next cycle. -/
def State.mrqlCycle (s : State) (c : CoreId) (e : EngId) (errs : List (Nat × EccResult)) (x : Nat) (r : MrqlOp) : State :=
  let k := s.core c
  let first := 64 * r.blk.toNat
  let ls := r.linesAt k.cfg.legacy x
  let addr := fun (i : Nat) => tileAlias c e r.tq.val (first + i)
  let latch := ls.foldl (fun l i => latchLine l (8 * i) (s.line (addr i))) k.mx[e].latch
  match s.readLines errs (ls.map addr) with
  | (s, some bad) => s.haltCore c true (4 + e.val) 0x0C r.bundle bad
  | (s, none) => s.modMx c e (fun m => { m with latch := latch })

/-- Everything one engine does at issue count x before its slot issues: drain stages, operand reads and counters, latch loads. -/
def State.engineCycle (s : State) (c : CoreId) (errs : List (Nat × EccResult)) (x : Nat) (e : EngId) : State :=
  let s := s.modMx c e (fun m => { m with drains := m.drains.map (DrainOp.stage m x) })
  let ops := (s.core c).mx[e].ops
  let s := ops.zipIdx.foldl (fun s o => (o.1.readsAt (s.core c).cfg e x).foldl (fun s r => s.tileRead c e errs o.2 r) s) s
  let s := match ops.find? (fun o => o.p ≤ x && x < o.p + o.t) with
    | some o => s.countGating c e o (x - o.p)
    | none => s.modMx c e (fun m => { m with gated := 0 })
  let s := (s.core c).mx[e].mrql.foldl (fun s r => s.mrqlCycle c e errs x r) s
  s.modMx c e (fun m => { m with mrql := m.mrql.filter (fun r => x < r.s + 16) })

/-- The four engines of a core. -/
def State.matrixCycle (s : State) (c : CoreId) (errs : List (Nat × EccResult)) (x : Nat) : State :=
  allEngs.foldl (fun s e => s.engineCycle c errs x e) s

/-! ## Meanings of the matrix-slot commands -/

/-- Opcode 0x10 (R115). -/
def execMmaI8I8 (core : CoreId) (eng : EngId) (w : BitVec 56) (s : State) : Result := issueMatrix core eng 0x10 w s
/-- Opcode 0x11 (R115). -/
def execMmaI8I4 (core : CoreId) (eng : EngId) (w : BitVec 56) (s : State) : Result := issueMatrix core eng 0x11 w s
/-- Opcode 0x12 (R115). -/
def execMmaI4I8 (core : CoreId) (eng : EngId) (w : BitVec 56) (s : State) : Result := issueMatrix core eng 0x12 w s
/-- Opcode 0x13 (R115). -/
def execMmaI4I4 (core : CoreId) (eng : EngId) (w : BitVec 56) (s : State) : Result := issueMatrix core eng 0x13 w s
/-- Opcode 0x14 (R115). -/
def execMmaE4E4 (core : CoreId) (eng : EngId) (w : BitVec 56) (s : State) : Result := issueMatrix core eng 0x14 w s
/-- Opcode 0x15 (R115). -/
def execMmaE4E5 (core : CoreId) (eng : EngId) (w : BitVec 56) (s : State) : Result := issueMatrix core eng 0x15 w s
/-- Opcode 0x16 (R115). -/
def execMmaE5E4 (core : CoreId) (eng : EngId) (w : BitVec 56) (s : State) : Result := issueMatrix core eng 0x16 w s
/-- Opcode 0x17 (R115). -/
def execMmaE5E5 (core : CoreId) (eng : EngId) (w : BitVec 56) (s : State) : Result := issueMatrix core eng 0x17 w s
/-- Opcode 0x18 (R115). -/
def execMmaE4F4 (core : CoreId) (eng : EngId) (w : BitVec 56) (s : State) : Result := issueMatrix core eng 0x18 w s
/-- Opcode 0x19 (R115). -/
def execMmaF4E4 (core : CoreId) (eng : EngId) (w : BitVec 56) (s : State) : Result := issueMatrix core eng 0x19 w s
/-- Opcode 0x1A (R115). -/
def execMmaE5F4 (core : CoreId) (eng : EngId) (w : BitVec 56) (s : State) : Result := issueMatrix core eng 0x1A w s
/-- Opcode 0x1B (R115). -/
def execMmaF4E5 (core : CoreId) (eng : EngId) (w : BitVec 56) (s : State) : Result := issueMatrix core eng 0x1B w s
/-- Opcode 0x1C (R115). -/
def execMmaF4F4 (core : CoreId) (eng : EngId) (w : BitVec 56) (s : State) : Result := issueMatrix core eng 0x1C w s
/-- Opcode 0x1D (R122). -/
def execMmaBf16 (core : CoreId) (eng : EngId) (w : BitVec 56) (s : State) : Result := issueMatrix core eng 0x1D w s
/-- Opcode 0x1E (R123). -/
def execMmaFp16 (core : CoreId) (eng : EngId) (w : BitVec 56) (s : State) : Result := issueMatrix core eng 0x1E w s
/-- Opcode 0x1F (R124). -/
def execMmaFp32 (core : CoreId) (eng : EngId) (w : BitVec 56) (s : State) : Result := issueMatrix core eng 0x1F w s
/-- Opcode 0x20 (R125). -/
def execCmmaI8 (core : CoreId) (eng : EngId) (w : BitVec 56) (s : State) : Result := issueMatrix core eng 0x20 w s
/-- Opcode 0x21 (R125). -/
def execCmmaE4 (core : CoreId) (eng : EngId) (w : BitVec 56) (s : State) : Result := issueMatrix core eng 0x21 w s
/-- Opcode 0x22 (R125). -/
def execCmmaE5 (core : CoreId) (eng : EngId) (w : BitVec 56) (s : State) : Result := issueMatrix core eng 0x22 w s
/-- Opcode 0x30 (R128). -/
def execSmma4I8I8 (core : CoreId) (eng : EngId) (w : BitVec 56) (s : State) : Result := issueMatrix core eng 0x30 w s
/-- Opcode 0x31 (R128). -/
def execSmma4I8I4 (core : CoreId) (eng : EngId) (w : BitVec 56) (s : State) : Result := issueMatrix core eng 0x31 w s
/-- Opcode 0x32 (R128). -/
def execSmma4I4I8 (core : CoreId) (eng : EngId) (w : BitVec 56) (s : State) : Result := issueMatrix core eng 0x32 w s
/-- Opcode 0x33 (R128). -/
def execSmma4I4I4 (core : CoreId) (eng : EngId) (w : BitVec 56) (s : State) : Result := issueMatrix core eng 0x33 w s
/-- Opcode 0x34 (R128). -/
def execSmma4E4E4 (core : CoreId) (eng : EngId) (w : BitVec 56) (s : State) : Result := issueMatrix core eng 0x34 w s
/-- Opcode 0x35 (R128). -/
def execSmma4E4E5 (core : CoreId) (eng : EngId) (w : BitVec 56) (s : State) : Result := issueMatrix core eng 0x35 w s
/-- Opcode 0x36 (R128). -/
def execSmma4E5E4 (core : CoreId) (eng : EngId) (w : BitVec 56) (s : State) : Result := issueMatrix core eng 0x36 w s
/-- Opcode 0x37 (R128). -/
def execSmma4E5E5 (core : CoreId) (eng : EngId) (w : BitVec 56) (s : State) : Result := issueMatrix core eng 0x37 w s
/-- Opcode 0x38 (R128). -/
def execSmma4E4F4 (core : CoreId) (eng : EngId) (w : BitVec 56) (s : State) : Result := issueMatrix core eng 0x38 w s
/-- Opcode 0x39 (R128). -/
def execSmma4F4E4 (core : CoreId) (eng : EngId) (w : BitVec 56) (s : State) : Result := issueMatrix core eng 0x39 w s
/-- Opcode 0x3A (R128). -/
def execSmma4E5F4 (core : CoreId) (eng : EngId) (w : BitVec 56) (s : State) : Result := issueMatrix core eng 0x3A w s
/-- Opcode 0x3B (R128). -/
def execSmma4F4E5 (core : CoreId) (eng : EngId) (w : BitVec 56) (s : State) : Result := issueMatrix core eng 0x3B w s
/-- Opcode 0x3C (R128). -/
def execSmma4F4F4 (core : CoreId) (eng : EngId) (w : BitVec 56) (s : State) : Result := issueMatrix core eng 0x3C w s
/-- Opcode 0x50 (R128). -/
def execSmma2I8I8 (core : CoreId) (eng : EngId) (w : BitVec 56) (s : State) : Result := issueMatrix core eng 0x50 w s
/-- Opcode 0x51 (R128). -/
def execSmma2I8I4 (core : CoreId) (eng : EngId) (w : BitVec 56) (s : State) : Result := issueMatrix core eng 0x51 w s
/-- Opcode 0x52 (R128). -/
def execSmma2I4I8 (core : CoreId) (eng : EngId) (w : BitVec 56) (s : State) : Result := issueMatrix core eng 0x52 w s
/-- Opcode 0x53 (R128). -/
def execSmma2I4I4 (core : CoreId) (eng : EngId) (w : BitVec 56) (s : State) : Result := issueMatrix core eng 0x53 w s
/-- Opcode 0x54 (R128). -/
def execSmma2E4E4 (core : CoreId) (eng : EngId) (w : BitVec 56) (s : State) : Result := issueMatrix core eng 0x54 w s
/-- Opcode 0x55 (R128). -/
def execSmma2E4E5 (core : CoreId) (eng : EngId) (w : BitVec 56) (s : State) : Result := issueMatrix core eng 0x55 w s
/-- Opcode 0x56 (R128). -/
def execSmma2E5E4 (core : CoreId) (eng : EngId) (w : BitVec 56) (s : State) : Result := issueMatrix core eng 0x56 w s
/-- Opcode 0x57 (R128). -/
def execSmma2E5E5 (core : CoreId) (eng : EngId) (w : BitVec 56) (s : State) : Result := issueMatrix core eng 0x57 w s
/-- Opcode 0x58 (R128). -/
def execSmma2E4F4 (core : CoreId) (eng : EngId) (w : BitVec 56) (s : State) : Result := issueMatrix core eng 0x58 w s
/-- Opcode 0x59 (R128). -/
def execSmma2F4E4 (core : CoreId) (eng : EngId) (w : BitVec 56) (s : State) : Result := issueMatrix core eng 0x59 w s
/-- Opcode 0x5A (R128). -/
def execSmma2E5F4 (core : CoreId) (eng : EngId) (w : BitVec 56) (s : State) : Result := issueMatrix core eng 0x5A w s
/-- Opcode 0x5B (R128). -/
def execSmma2F4E5 (core : CoreId) (eng : EngId) (w : BitVec 56) (s : State) : Result := issueMatrix core eng 0x5B w s
/-- Opcode 0x5C (R128). -/
def execSmma2F4F4 (core : CoreId) (eng : EngId) (w : BitVec 56) (s : State) : Result := issueMatrix core eng 0x5C w s
/-- Opcode 0x90 (R141). -/
def execLmmaI8I8 (core : CoreId) (eng : EngId) (w : BitVec 56) (s : State) : Result := issueMatrix core eng 0x90 w s
/-- Opcode 0x91 (R141). -/
def execLmmaI8I4 (core : CoreId) (eng : EngId) (w : BitVec 56) (s : State) : Result := issueMatrix core eng 0x91 w s
/-- Opcode 0x92 (R141). -/
def execLmmaI4I8 (core : CoreId) (eng : EngId) (w : BitVec 56) (s : State) : Result := issueMatrix core eng 0x92 w s
/-- Opcode 0x93 (R141). -/
def execLmmaI4I4 (core : CoreId) (eng : EngId) (w : BitVec 56) (s : State) : Result := issueMatrix core eng 0x93 w s
/-- Opcode 0x94 (R141). -/
def execLmmaE4E4 (core : CoreId) (eng : EngId) (w : BitVec 56) (s : State) : Result := issueMatrix core eng 0x94 w s
/-- Opcode 0x95 (R141). -/
def execLmmaE4E5 (core : CoreId) (eng : EngId) (w : BitVec 56) (s : State) : Result := issueMatrix core eng 0x95 w s
/-- Opcode 0x96 (R141). -/
def execLmmaE5E4 (core : CoreId) (eng : EngId) (w : BitVec 56) (s : State) : Result := issueMatrix core eng 0x96 w s
/-- Opcode 0x97 (R141). -/
def execLmmaE5E5 (core : CoreId) (eng : EngId) (w : BitVec 56) (s : State) : Result := issueMatrix core eng 0x97 w s
/-- Opcode 0x98 (R141). -/
def execLmmaE4F4 (core : CoreId) (eng : EngId) (w : BitVec 56) (s : State) : Result := issueMatrix core eng 0x98 w s
/-- Opcode 0x99 (R141). -/
def execLmmaF4E4 (core : CoreId) (eng : EngId) (w : BitVec 56) (s : State) : Result := issueMatrix core eng 0x99 w s
/-- Opcode 0x9A (R141). -/
def execLmmaE5F4 (core : CoreId) (eng : EngId) (w : BitVec 56) (s : State) : Result := issueMatrix core eng 0x9A w s
/-- Opcode 0x9B (R141). -/
def execLmmaF4E5 (core : CoreId) (eng : EngId) (w : BitVec 56) (s : State) : Result := issueMatrix core eng 0x9B w s
/-- Opcode 0x9C (R141). -/
def execLmmaF4F4 (core : CoreId) (eng : EngId) (w : BitVec 56) (s : State) : Result := issueMatrix core eng 0x9C w s
/-- Opcode 0x9D (R141). -/
def execLmmaBf16 (core : CoreId) (eng : EngId) (w : BitVec 56) (s : State) : Result := issueMatrix core eng 0x9D w s
/-- Opcode 0x9E (R141). -/
def execLmmaFp16 (core : CoreId) (eng : EngId) (w : BitVec 56) (s : State) : Result := issueMatrix core eng 0x9E w s
/-- Opcode 0x9F (R141). -/
def execLmmaFp32 (core : CoreId) (eng : EngId) (w : BitVec 56) (s : State) : Result := issueMatrix core eng 0x9F w s
/-- Opcode 0xA0 (R141). -/
def execLcmmaI8 (core : CoreId) (eng : EngId) (w : BitVec 56) (s : State) : Result := issueMatrix core eng 0xA0 w s
/-- Opcode 0xA1 (R141). -/
def execLcmmaE4 (core : CoreId) (eng : EngId) (w : BitVec 56) (s : State) : Result := issueMatrix core eng 0xA1 w s
/-- Opcode 0xA2 (R141). -/
def execLcmmaE5 (core : CoreId) (eng : EngId) (w : BitVec 56) (s : State) : Result := issueMatrix core eng 0xA2 w s
/-- Opcode 0x02 (R134). -/
def execMrql (core : CoreId) (eng : EngId) (w : BitVec 56) (s : State) : Result := issueMatrix core eng 0x02 w s
/-- Opcode 0x01 (R136, R137). -/
def execMdrn (core : CoreId) (eng : EngId) (w : BitVec 56) (s : State) : Result := issueMatrix core eng 0x01 w s

end Sys2Proof.Machine
end

