-- ==== Sys2Proof/Machine/Digest.lean ====
section
/-! DEFINITION. Digest.lean: SHA-384 and ECDSA over P-384, which 13 R306 and R307 name for the image digest and its signature (PRESUMED from FIPS 180-4 and FIPS 186-5, log 11). -/

namespace Sys2Proof.Machine

/-! ## SHA-384 -/

/-- The primes below 410: numbers from 2 on that no smaller number from 2 to 20 divides. -/
def smallPrimes : List Nat := (List.range 410).filter (fun k => 2 ≤ k && (List.range 19).all (fun d => k ≤ d + 2 || k % (d + 2) ≠ 0))

/-- The largest r below the next power of two, in steps of one bit from r on, with r^e at most v. -/
def rootFrom (e v : Nat) : Nat → Nat → Nat
  | 0, r => r
  | b + 1, r => rootFrom e v b (if (r + 2 ^ b) ^ e ≤ v then r + 2 ^ b else r)

/-- The first 64 bits of the fraction of the e-th root of a number below 512. -/
def rootFraction (e n : Nat) : Nat := rootFrom e (n * 2 ^ (64 * e)) 69 0 % 2 ^ 64

/-- The round constants: the cube roots of the first 80 primes. -/
def shaRounds : List Nat := smallPrimes.map (rootFraction 3)

/-- The words that the hash starts from: the square roots of the ninth to the sixteenth prime. -/
def shaStart : List Nat := ((smallPrimes.drop 8).take 8).map (rootFraction 2)

/-- The exclusive or of a word of 64 bits rotated right by i and by j, and z. -/
def turned (x i j z : Nat) : Nat := let y := x * (2 ^ 64 + 1); (y >>> i ^^^ y >>> j ^^^ z) % 2 ^ 64

/-- The schedule of a block as its words come in, newest first: each of the next n words is made of four before it. -/
def shaSchedule : Nat → List Nat → List Nat
  | 0, w => w
  | n + 1, w =>
    let x := w.getD 14 0
    let y := w.getD 1 0
    shaSchedule n ((turned y 19 61 (y >>> 6) + w.getD 6 0 + turned x 1 8 (x >>> 7) + w.getD 15 0) % 2 ^ 64 :: w)

/-- The rounds of a block on the eight words of the hash: each takes the sum of its constant and its schedule word. -/
def shaTurns : List Nat → Nat → Nat → Nat → Nat → Nat → Nat → Nat → Nat → List Nat
  | [], a, b, c, d, e, f, g, h => [a, b, c, d, e, f, g, h]
  | k :: ks, a, b, c, d, e, f, g, h =>
    let t := h + turned e 14 18 ((e * (2 ^ 64 + 1)) >>> 41) + (g ^^^ (e &&& (f ^^^ g))) + k
    shaTurns ks ((t + turned a 28 34 ((a * (2 ^ 64 + 1)) >>> 39) + ((a &&& b) ||| (c &&& (a ||| b)))) % 2 ^ 64) a b c ((d + t) % 2 ^ 64) e f g

/-- One block, as 16 words. -/
def shaBlock (h w : List Nat) : List Nat :=
  let ks := List.zipWith (fun k x => k + x) shaRounds (shaSchedule 64 w.reverse).reverse
  match h with
  | [a, b, c, d, e, f, g, x] => List.zipWith (fun x y => (x + y) % 2 ^ 64) h (shaTurns ks a b c d e f g x)
  | _ => h

/-- The blocks of a padded message, n of them. -/
def shaBlocks : Nat → List Nat → List Byte → List Nat
  | 0, h, _ => h
  | n + 1, h, l => shaBlocks n (shaBlock h ((List.range 16).map (fun i => beNat ((l.drop (8 * i)).take 8)))) (l.drop 128)

/-- A message with its padding: a 1 bit, zeros, its length in bits as 16 bytes. -/
def shaPadded (l : List Byte) : List Byte :=
  l ++ 0x80 :: (List.replicate ((239 - l.length % 128) % 128) 0 ++ beBytes 16 (8 * l.length))

/-- SHA-384 of a message, first byte most significant: the first six words of the hash. -/
def sha384 (l : List Byte) : BitVec 384 :=
  let p := shaPadded l
  BitVec.ofNat 384 (((shaBlocks (p.length / 128) shaStart p).take 6).foldl (fun n w => n * 2 ^ 64 + w) 0)

/-! ## ECDSA over P-384 -/

/-- The prime of the curve's field. -/
def curveField : Nat := 2 ^ 384 - 2 ^ 128 - 2 ^ 96 + 2 ^ 32 - 1

/-- The order of its base point. -/
def curveOrder : Nat := 0xffffffffffffffffffffffffffffffffffffffffffffffffc7634d81f4372ddf581a0db248b0a77aecec196accc52973

/-- A point of the curve in the coordinates (x : y : z) that stand for (x / z^2, y / z^3); z = 0: the neutral point. -/
structure CurvePoint where
  x : Nat
  y : Nat
  z : Nat
  deriving DecidableEq, Repr

/-- The base point. -/
def CurvePoint.base : CurvePoint := { x := keyAtReset.toNat / 2 ^ 384, y := keyAtReset.toNat % 2 ^ 384, z := 1 }

/-- The difference of two field elements. -/
def fieldSub (a b : Nat) : Nat := (a + curveField - b) % curveField

/-- Twice a point: the curve has a = -3. -/
def CurvePoint.double (p : CurvePoint) : CurvePoint :=
  let zz := p.z * p.z % curveField
  let yy := p.y * p.y % curveField
  let s := 4 * p.x * yy % curveField
  let m := 3 * fieldSub p.x zz * (p.x + zz) % curveField
  let x := fieldSub (m * m % curveField) (2 * s % curveField)
  { x := x, y := fieldSub (m * fieldSub s x % curveField) (8 * yy * yy % curveField), z := 2 * p.y * p.z % curveField }

/-- The sum of two points. -/
def CurvePoint.add (p q : CurvePoint) : CurvePoint :=
  if p.z = 0 then q else if q.z = 0 then p
  else
    let pz := p.z * p.z % curveField
    let qz := q.z * q.z % curveField
    let u := p.x * qz % curveField
    let s := p.y * (qz * q.z % curveField) % curveField
    let h := fieldSub (q.x * pz % curveField) u
    let r := fieldSub (q.y * (pz * p.z % curveField) % curveField) s
    if h = 0 then (if r = 0 then p.double else { x := 1, y := 1, z := 0 })
    else
      let hh := h * h % curveField
      let v := u * hh % curveField
      let x := fieldSub (r * r % curveField) ((h * hh + 2 * v) % curveField)
      { x := x, y := fieldSub (r * fieldSub v x % curveField) (s * (h * hh % curveField) % curveField),
        z := p.z * q.z % curveField * h % curveField }

/-- a * p + b * q from the low bits of a and b: the sum of p and q is given. -/
def curveSum (p q pq : CurvePoint) (a b : Nat) : Nat → CurvePoint → CurvePoint
  | 0, t => t
  | n + 1, t =>
    let d := t.double
    curveSum p q pq a b n (match a.testBit n, b.testBit n with
      | true, true => d.add pq
      | true, false => d.add p
      | false, true => d.add q
      | false, false => d)

/-- x to a power modulo m, from the low bits of the exponent. -/
def powMod (m x e : Nat) : Nat → Nat → Nat
  | 0, t => t
  | n + 1, t => powMod m x e n (if e.testBit n then t * t % m * x % m else t * t % m)

/-- A signature over a digest verifies with a public key: r and s are in range, and the point that they, the digest and the key give has r as its x coordinate, modulo the order. -/
def ecdsaOk (key : BitVec 768) (digest r s : Nat) : Bool :=
  let q : CurvePoint := { x := key.toNat / 2 ^ 384, y := key.toNat % 2 ^ 384, z := 1 }
  let w := powMod curveOrder s (curveOrder - 2) 384 1
  let t := curveSum .base q (CurvePoint.base.add q) (digest * w % curveOrder) (r * w % curveOrder) 384 { x := 1, y := 1, z := 0 }
  let zz := t.z * t.z % curveField
  1 ≤ r && r < curveOrder && 1 ≤ s && s < curveOrder && t.z != 0 &&
  (t.x == r * zz % curveField || (r + curveOrder < curveField && t.x == (r + curveOrder) * zz % curveField))

end Sys2Proof.Machine
end

