-- ==== Sys2Proof/Machine/Image.lean ====
section
/-! DEFINITION. Image.lean: assize images (13 R306-R311, R320, R417, R418): their sections, the checks of each stage (13 R313-R316, R321; 02 R43-R47), and what a CORE section sets. -/

namespace Sys2Proof.Machine

/-! ## The bytes of an image -/

/-- n bytes from an address on, in one pass over cells of rising address (WellFormed keeps an image's so): bytesFrom_eq says that it reads what memReadBytes does. -/
def bytesFrom : Nat → List Host.Cell → Nat → List Byte
  | 0, _, _ => []
  | n + 1, m, a =>
    match m.dropWhile (fun e => e.1 < a) with
    | [] => 0 :: bytesFrom n [] (a + 1)
    | (k, b) :: m => if k = a then b :: bytesFrom n m (a + 1) else 0 :: bytesFrom n ((k, b) :: m) (a + 1)

/-- n bytes of an image. -/
def imgRead (m : Image) (off n : Nat) : List Byte := bytesFrom n m.bytes off

/-- A little-endian field of an image. -/
def imgNat (m : Image) (off n : Nat) : Nat := leNat (imgRead m off n)

/-- A section table entry (R308). -/
structure Section where
  type : Nat
  part : Nat
  off : Nat
  size : Nat
  deriving DecidableEq, Repr

/-- NSEC. -/
def imgCount (m : Image) : Nat := imgNat m 0x22 2
/-- PMASK. -/
def imgPmask (m : Image) : BitVec 8 := BitVec.ofNat 8 (imgNat m 0x20 1)
/-- Whether an image affects a partition. -/
def imgAffects (m : Image) (p : PartId) : Bool := bit (imgPmask m) p.val

/-- The sections in table order. -/
def imgSections (m : Image) : List Section :=
  (List.range (imgCount m)).map (fun i =>
    let e := 0x40 + 16 * i
    { type := imgNat m e 2, part := imgNat m (e + 2) 1, off := imgNat m (e + 4) 8, size := imgNat m (e + 12) 4 })

/-- The sections of a type. -/
def imgOf (m : Image) (type : Nat) : List Section := (imgSections m).filter (fun x => x.type == type)
/-- The first section of a type, of a partition. -/
def imgPart (m : Image) (type : Nat) (p : PartId) : Option Section := (imgOf m type).find? (fun x => x.part == p.val)
/-- The bytes of a section. -/
def secBytes (m : Image) (x : Section) : List Byte := imgRead m x.off x.size
/-- A field of a section. -/
def secNat (m : Image) (x : Section) (o n : Nat) : Nat := imgNat m (x.off + o) n

/-- A partition record from its 128 bits (R309). -/
def partsRecord (w : Nat) : PartsRecord :=
  let b := BitVec.ofNat 32 w
  { valid := bit b 0, x0 := b.extractLsb' 1 3, y0 := b.extractLsb' 4 3, w := b.extractLsb' 7 4, h := b.extractLsb' 11 4,
    pcBase := b.extractLsb' 15 6, b := b.extractLsb' 21 7, ilv := bit b 28, refm := bit b 29 }

/-- The partition record of an image. -/
def imgParts (m : Image) (p : PartId) : PartsRecord :=
  match imgOf m 2 with
  | x :: _ => partsRecord (secNat m x (16 * p.val) 16)
  | [] => .none

/-- The cores of a partition of an image, in ascending id. -/
def imgCores (m : Image) (p : PartId) : List CoreId := allCores.filter (fun c => (imgParts m p).covers c)

/-- The cores that a list of partition records gives a partition: an image's own records, or for a transaction the loaded ones. -/
def coresIn (rs : Vector PartsRecord 8) (p : PartId) : List CoreId := allCores.filter (fun c => rs[p].covers c)

/-- The partition records an image is read against. -/
def State.recordsFor (s : State) (m : Image) : Vector PartsRecord 8 :=
  if (imgOf m 2).isEmpty then s.parts.map Part.pr else Vector.ofFn (imgParts m)

/-- The CORE section of a core: a partition's CORE sections are its cores' in ascending id (DEDUCED, log 18). -/
def coreSection (m : Image) (rs : Vector PartsRecord 8) (c : CoreId) : Option Section :=
  match allParts.find? (fun p => rs[p].covers c) with
  | none => none
  | some p => ((coresIn rs p).zip ((imgOf m 3).filter (fun x => x.part == p.val))).lookup c

/-- Register k of a CORE section (R310); 539 to 541 are the code region's base and length and the entry point. -/
def coreReg (m : Image) (x : Section) (k : Nat) : BitVec 64 := BitVec.ofNat 64 (secNat m x (8 * k) 8)

/-- The non-zero handler operations of a CORE section: their place and word. -/
def coreHandlers (m : Image) (x : Section) : List (Nat × BitVec 64) :=
  ((List.range 512).map (fun k => (k, coreReg m x (27 + k)))).filter (fun e => e.2 != 0)

/-- The fields of a CFG_REGIONn register: its other bits are reserved and read 0 (04 R85; 00 R13). -/
def regionFields : BitVec 64 := maskOf 64 [(63, 61), (24, 16), (8, 0)]

/-- The reserved bits of the registers of a CORE section, by register, but those of handler operations (R310; 04 R85, R103; 10 R250; 11 R282). -/
def coreReserved (k : Nat) : BitVec 64 :=
  if k < 16 then ~~~regionFields
  else if k = 22 then maskOf 64 [(63, 32)]
  else if k = 25 then maskOf 64 [(63, 1)]
  else if k = 26 then maskOf 64 [(63, 33), (23, 20), (15, 14), (7, 6)]
  else 0

/-- What a CORE section sets in a core (R310). -/
def setCore (m : Image) (x : Section) (k : Core) : Core :=
  let r := coreReg m x
  let q := r 26
  { k with
    cfg := { k.cfg with
      region := Vector.ofFn (fun i : Fin 16 => r i.val &&& regionFields)
      tshape0 := r 23, tshape1 := r 24, legacy := bit (r 25) 0
      hnd := (coreHandlers m x).map (fun e => (e.1, e.2.extractLsb' 0 48))
      codeBase := r 539, codeLen := r 540, entry := r 541 }
    syn := { k.syn with
      cap := Vector.ofFn (fun i : Fin 48 => (r (16 + i.val / 8)).extractLsb' (8 * (i.val % 8)) 8)
      scope := (r 22).extractLsb' 0 32 }
    mu := { k.mu with
      fab := bit q 32, peers := q.extractLsb' 24 8, c0res := q.extractLsb' 16 4, rpDepth := q.extractLsb' 8 6, rqDepth := q.extractLsb' 0 6 } }

/-- The AZ fields of a core at their reset values (R310). -/
def clearCore (k : Core) : Core :=
  { k with
    cfg := { k.cfg with
      region := .replicate 16 0, tshape0 := 0, tshape1 := 0, legacy := false, hnd := [], codeBase := 0, codeLen := 0, entry := 0 }
    syn := { k.syn with cap := .replicate 48 0, scope := 0 }
    mu := { k.mu with fab := false, peers := 0, c0res := 0, rpDepth := 0, rqDepth := 0 } }

/-- A CODE section: core, slice offset, bundles (R308, R418). -/
structure CodeSection where
  core : Nat
  off : Nat
  count : Nat
  at_ : Nat

/-- The CODE sections of an image. -/
def imgCode (m : Image) : List CodeSection :=
  (imgOf m 4).map (fun x => { core := secNat m x 0 2, off := secNat m x 8 8, count := (x.size - 16) / 64, at_ := x.off + 16 })

/-- The bundles of a CODE section as lines. -/
def codeLines (m : Image) (x : CodeSection) : List Line :=
  (List.range x.count).map (fun i => bytesLine (imgRead m (x.at_ + 64 * i) 64))

/-- The words of an OWNER section (09 R236): header in four, then one per entry. -/
def ownerWords (m : Image) (x : Section) : List (BitVec 128) :=
  (List.range (x.size / 16)).map (fun i => BitVec.ofNat 128 (secNat m x (16 * i) 16))

/-! ## Stage 1: format (R306, R308, R417, R418) -/

/-- Zero bytes of an image from one on. -/
def zeros (m : Image) (off n : Nat) : Bool := m.bytes.all (fun e => !(off ≤ e.1 && e.1 < off + n))

/-- Types of die-wide sections. -/
def dieType (t : Nat) : Bool := t = 2 || (5 ≤ t && t ≤ 9)

/-- The size that R418 gives a section; none where it has none of it. -/
def sizeOk (m : Image) (rs : Vector PartsRecord 8) (x : Section) : Bool :=
  match x.type with
  | 1 => x.size = 4096
  | 2 => x.size = 128
  | 3 => x.size = 4336
  | 4 => 80 ≤ x.size && (x.size - 16) % 64 = 0
  | 5 => x.size = 64
  | 6 => x.size = 2056
  | 7 => 64 ≤ x.size && x.size = 64 + 16 * secNat m x 32 2
  | 8 => 64 ≤ x.size && x.size = 64 + 16 * secNat m x 2 2
  | 9 => x.size = 64
  | 10 => x.part < 8 && x.size = 64 + 8 * (coresIn rs (Fin.ofNat 8 x.part)).length
  | _ => false

/-- Bits 63:48 of every handler operation, registers 27 to 538 of a CORE section, are 0 (11 R266). -/
def handlerBitsOk (m : Image) (x : Section) : Bool :=
  m.bytes.all (fun e => !(x.off + 216 ≤ e.1 && e.1 < x.off + 4312 && 6 ≤ (e.1 - (x.off + 216)) % 8))

/-- The reserved bytes and bits of a section are 0. -/
def reservedOk (m : Image) (x : Section) : Bool :=
  match x.type with
  | 1 =>
    zeros m (x.off + 12) 4 && zeros m (x.off + 35) 1 && zeros m (x.off + 48) 16 && zeros m (x.off + 94) 34 &&
    zeros m (x.off + 3840) 256 && secNat m x 34 1 ≤ 1 &&
    (List.range 32).all (fun i => let o := 2816 + 32 * i
      secNat m x o 1 ≤ 1 && zeros m (x.off + o + 3) 1 && zeros m (x.off + o + 28) 4)
  | 2 => (List.range 8).all (fun i => secNat m x (16 * i) 16 < 2 ^ 30)
  | 3 => (List.range 27).all (fun k => coreReg m x k &&& coreReserved k == 0) && handlerBitsOk m x
  | 4 => zeros m (x.off + 2) 6
  | 5 => secNat m x 4 1 ≤ 1 && zeros m (x.off + 5) 59
  | 6 => secNat m x 0 8 < 2 ^ 20 && (List.range 256).all (fun n =>
      let w := secNat m x (8 + 8 * n) 8
      w < 2 ^ 33 && w / 2 ^ 20 % 256 = 0)
  | 7 => zeros m (x.off + 9) 7 && zeros m (x.off + 34) 30 &&
      (List.range (secNat m x 32 2)).all (fun g => zeros m (x.off + 64 + 16 * g + 6) 10)
  | 8 => zeros m (x.off + 14) 50 && ((ownerWords m x).drop 4).all (fun e => fld e 127 124 = 0)
  | 9 => zeros m (x.off + 2) 62
  | 10 => secNat m x 0 1 ≤ 15 && secNat m x 1 1 ≤ 1 && zeros m (x.off + 2) 6 && zeros m (x.off + 12) 52 &&
      (secNat m x 1 1 = 1 || zeros m (x.off + 64) (x.size - 64))
  | _ => true

/-- Sections in ascending offset, apart, between the table and SIG (R308). -/
def placed (m : Image) : Nat → List Section → Bool
  | from_, [] => from_ ≤ m.len - 128
  | from_, x :: xs => x.off % 64 = 0 && from_ ≤ x.off && placed m (x.off + x.size) xs

/-- Which sections an image of a kind must and may hold (R308). -/
def presenceOk (m : Image) (rs : Vector PartsRecord 8) (load : Bool) : Bool :=
  let n := fun (t : Nat) => (imgOf m t).length
  let perPart := fun (t : Nat) (p : PartId) => ((imgOf m t).filter (fun x => x.part == p.val)).length
  if load then
    n 2 = 1 && n 5 = 1 && n 6 = 1 && n 7 = 1 && n 9 ≤ 1 && n 10 = 0 &&
    allParts.all (fun p =>
      let v := rs[p].valid
      let a := imgAffects m p
      perPart 1 p ≤ (if v then 1 else 0) && (!(a && v) || perPart 1 p = 1) &&
      (if v then perPart 3 p ≤ (coresIn rs p).length && (!a || perPart 3 p = (coresIn rs p).length) else perPart 3 p = 0))
  else
    n 1 = 0 && n 2 = 0 && n 5 = 0 && n 7 = 0 && n 9 = 0 && n 6 ≤ 1 && n 10 = 1 &&
    allParts.all (fun p => perPart 3 p = 0 || (imgAffects m p && perPart 3 p ≤ (coresIn rs p).length)) &&
    (imgOf m 10).all (fun x => imgPmask m == BitVec.ofNat 8 (2 ^ x.part))

/-- Stage 1 of R313. -/
def formatOk (m : Image) (rs : Vector PartsRecord 8) (load : Bool) : Bool :=
  let ss := imgSections m
  let tableEnd := 0x40 + 16 * imgCount m
  imgNat m 0 4 = 0x5A495341 && imgNat m 4 2 = 1 && imgNat m 6 1 = (if load then 1 else 2) && zeros m 7 1 &&
  imgNat m 0x10 8 = m.len && m.len % 64 = 0 && 4096 ≤ m.len && m.len ≤ 2 ^ 30 &&
  (!load || imgNat m 0x18 8 = 0) && zeros m 0x21 1 && zeros m 0x24 28 && 1 ≤ imgCount m && imgCount m ≤ 1024 &&
  (List.range (imgCount m)).all (fun i => zeros m (0x40 + 16 * i + 3) 1) &&
  ss.all (fun x => 1 ≤ x.type && x.type ≤ 10 && (if dieType x.type then x.part = 0xFF else x.part < 8)) &&
  placed m tableEnd ss && presenceOk m rs load && ss.all (sizeOk m rs) && ss.all (reservedOk m) &&
  m.bytes.all (fun e => e.1 < tableEnd || m.len - 128 ≤ e.1 && e.1 < m.len || ss.any (fun x => x.off ≤ e.1 && e.1 < x.off + x.size))

/-! ## Stage 4: structure (R315) -/

/-- Whether two spans of numbers, first and count, meet. -/
def bandsMeet (a b : Nat × Nat) : Bool := a.1 < b.1 + b.2 && b.1 < a.1 + a.2

/-- Pairwise apart. -/
def apart (l : List (Nat × Nat)) : Bool := l.Pairwise (fun a b => bandsMeet a b = false)

/-- Rows of enabled cores. -/
def Grade.rows (g : Grade) : Nat := g.cores / 8

/-- CODE 0x01: partitions. -/
def partsOk (g : Grade) (rs : Vector PartsRecord 8) : Bool :=
  allParts.all (fun p => let r := rs[p]
    !r.valid || (1 ≤ r.w.toNat && r.w.toNat ≤ 8 && 1 ≤ r.h.toNat && r.h.toNat ≤ 8 && r.x0.toNat + r.w.toNat ≤ 8 &&
      r.y0.toNat + r.h.toNat ≤ g.rows)) &&
  allCores.all (fun c => (allParts.filter (fun p => rs[p].covers c)).length ≤ 1)

/-- RRBASE and RRCNT of an image. -/
def imgRecord (m : Image) : Nat × Nat :=
  match imgOf m 9 with | x :: _ => (secNat m x 0 1, secNat m x 1 1) | [] => (0, 0)

/-- CODE 0x02: bands. -/
def bandsOk (m : Image) (rs : Vector PartsRecord 8) : Bool :=
  let bands := allParts.filterMap (fun p => let r := rs[p]; if r.valid then some (r.pcBase.toNat, r.b.toNat) else none)
  bands.all (fun b => 1 ≤ b.2 && b.1 + b.2 ≤ 64) && apart (bands ++ (if (imgRecord m).2 = 0 then [] else [imgRecord m]))

/-- The valid regions of a CORE section as slice spans (04 R85). -/
def secRegions (m : Image) (x : Section) : List (Nat × Nat) :=
  (List.range 16).filterMap (fun k => let r := coreReg m x k
    if bit r 63 then some (fld r 24 16 * 0x10000, fld r 8 0 * 0x10000) else none)

/-- CODE 0x03: regions. -/
def regionsOk (m : Image) (x : Section) : Bool :=
  (List.range 16).all (fun k => let r := coreReg m x k
    !bit r 63 || (fld r 62 61 ≤ 1 && 1 ≤ fld r 8 0 && fld r 24 16 + fld r 8 0 ≤ 448)) && apart (secRegions m x)

/-- CODE 0x04: the code region and entry point of a core (03 R57). -/
def codeOk (m : Image) (c : CoreId) (x : Section) : Bool :=
  let b := (coreReg m x 539).toNat
  let n := (coreReg m x 540).toNat
  let e := (coreReg m x 541).toNat
  b % 64 = 0 && n % 64 = 0 && 64 ≤ n && b + n ≤ 28 * 0x100000 && insideOne (secRegions m x) b n &&
  e % 64 = 0 && sliceBase c + b ≤ e && e < sliceBase c + b + n

/-- CODE 0x04: a CODE section lies in the code region of a core of an affected valid partition. -/
def bundlesOk (m : Image) (rs : Vector PartsRecord 8) (live : CoreId → Option (Nat × Nat)) (x : CodeSection) : Bool :=
  match epCore x.core with
  | none => false
  | some c =>
    (allParts.any (fun p => imgAffects m p && rs[p].covers c)) && x.off % 64 = 0 &&
    (match (match coreSection m rs c with
        | some sec => some ((coreReg m sec 539).toNat, (coreReg m sec 540).toNat)
        | none => live c) with
     | some r => r.1 ≤ x.off && x.off + 64 * x.count ≤ r.1 + r.2
     | none => false)

/-- CODE 0x05: tile shapes (04 R104). -/
def shapesOk (m : Image) (x : Section) : Bool := !bit (coreReg m x 25) 0 || (coreReg m x 23 == 0 && coreReg m x 24 == 0)

/-- CODE 0x06: barrier scopes (10 R250). -/
def scopesOk (m : Image) (rs : Vector PartsRecord 8) (secs : List (CoreId × Section)) : Bool :=
  secs.all (fun x => (List.range 16).all (fun i => fld (coreReg m x.2 22) (2 * i + 1) (2 * i) ≠ 3)) &&
  allParts.all (fun p =>
    let ws := (secs.filter (fun x => rs[p].covers x.1)).map (fun x => fld (coreReg m x.2 22) 31 0)
    match ws with | w :: rest => rest.all (fun v => v == w) | [] => true)

/-- The field bits of a handler operation below its opcode (11 R263, R266). -/
def handlerMask : Nat → Option (BitVec 40)
  | 0x00 => some 0
  | 0x01 => some (maskOf 40 [(37, 32), (31, 24)])
  | 0x20 => some (maskOf 40 [(39, 26), (23, 0)])
  | 0x24 => some (maskOf 40 [(31, 0)])
  | 0x25 => some (maskOf 40 [(39, 0)])
  | 0x26 => some (maskOf 40 [(39, 38), (31, 0)])
  | _ => none

/-- Whether the assize accepts a handler operation (11 R266, R268). -/
def handlerOk (w : BitVec 64) : Bool :=
  fld w 63 48 = 0 &&
  match handlerMask (fld w 47 40) with
  | none => false
  | some k => (w.extractLsb' 0 40 &&& ~~~k) == 0 && !(fld w 47 40 = 0x25 && fld w 39 38 = 3) && !(fld w 47 40 = 0x26 && 1 < fld w 39 38)

/-- CODE 0x07: CFG_MSGQ and the handler table (11 R282, R266). -/
def messagesOk (m : Image) (x : Section) : Bool :=
  let q := coreReg m x 26
  1 ≤ fld q 5 0 && fld q 5 0 ≤ 32 && 1 ≤ fld q 13 8 && fld q 13 8 ≤ 32 && fld q 19 16 < fld q 5 0 &&
  (coreHandlers m x).all (fun e => handlerOk e.2)

/-- Clock ceiling of a cooling class in MHz (00 R5). -/
def classCeil : Nat → Nat
  | 0 => 1100
  | 1 => 1900
  | _ => 2200

/-- Module envelope of a cooling class in W. -/
def classEnvelope : Nat → Nat
  | 0 => 1200
  | 1 => 1900
  | _ => 2400

/-- The effective ceiling (R311). -/
def effCeil (cls : Nat) (calBad : Bool) (ceil : Nat) (boost : Bool) : Nat :=
  let c := min ceil (classCeil cls)
  let c := if boost && cls = 2 then c else min c 2000
  if calBad then min c 1100 else c

/-- FLOOR, CEIL and BOOST of an image. -/
def imgClock (m : Image) : Nat × Nat × Bool :=
  match imgOf m 5 with | x :: _ => (secNat m x 0 2, secNat m x 2 2, secNat m x 4 1 = 1) | [] => (0, 0, false)

/-- The effective ceiling under an image. -/
def State.imgCeil (s : State) (m : Image) : Nat :=
  effCeil s.pow.cls.toNat s.pow.calBad (imgClock m).2.1 (imgClock m).2.2

/-- CODE 0x08: CLOCK. -/
def State.clockOk (s : State) (m : Image) : Bool :=
  let k := imgClock m
  let ok := fun (v : Nat) => v % 25 = 0 && 500 ≤ v && v ≤ 2200
  ok k.1 && ok k.2.1 && k.1 ≤ k.2.1 && k.1 ≤ s.imgCeil m

/-- A weir activity from its register (R324). -/
def activityOf (w : Nat) (old : Activity) : Activity :=
  let b := BitVec.ofNat 64 w
  { old with owner := b.extractLsb' 30 3, cls := b.extractLsb' 28 2, budget := b.extractLsb' 0 20 }

/-- The activities that a WEIR section sets. -/
def imgWeir (m : Image) (x : Section) : List Activity :=
  (List.range 256).map (fun n => activityOf (secNat m x (8 + 8 * n) 8) .reset)

/-- CODE 0x09: WEIR (R324, R325). -/
def State.weirOk (s : State) (m : Image) (x : Section) : Bool :=
  let acts := imgWeir m x
  secNat m x 0 8 ≤ classEnvelope s.pow.cls.toNat &&
  acts.all (fun a => !(a.cls == 0 && a.budget == 0xFFFFF)) &&
  ((acts.filter (fun a => a.cls == 0)).map (fun a => a.budget.toNat)).sum ≤ 15625

/-- The FABRIC section (15 R361). -/
def fabricOf (m : Image) (x : Section) : FabricConfig :=
  { modid := BitVec.ofNat 16 (secNat m x 0 2), role := BitVec.ofNat 8 (secNat m x 2 1), flow := BitVec.ofNat 8 (secNat m x 3 1),
    mgrid := BitVec.ofNat 16 (secNat m x 4 2), nmod := BitVec.ofNat 16 (secNat m x 6 2), ports := BitVec.ofNat 8 (secNat m x 8 1),
    route := BitVec.ofNat 128 (secNat m x 16 16),
    spans := (List.range (secNat m x 32 2)).map (fun g => BitVec.ofNat 128 (secNat m x (64 + 16 * g) 16)) }

/-- In direct mode each ROUTE byte names a port, or is 0xFF; the module's own is 0xFF. A standalone module has no fabric. -/
def FabricConfig.routesOk (f : FabricConfig) : Bool :=
  f.role == 0 || f.flow != 0 || (List.range 16).all (fun j =>
    let r := fld f.route (8 * j + 7) (8 * j)
    r = 0xFF || (r < 8 && j ≠ f.modid.toNat))

/-- CODE 0x0A: FABRIC (15 R361). The id of a span group is marked spanning in every core of its partition, under the image's CORE sections or, where it has none, as loaded. -/
def State.fabricOk (s : State) (m : Image) (rs : Vector PartsRecord 8) (x : Section) : Bool :=
  let f := fabricOf m x
  f.modid.toNat ≤ 4095 && f.role.toNat ≤ 2 && f.flow.toNat ≤ 1 && f.mgrid.toNat ≤ 4095 && (f.role != 1 || f.mgrid == f.modid) &&
  1 ≤ f.nmod.toNat && f.nmod.toNat ≤ 4096 && (f.flow != 0 || (f.modid.toNat ≤ 15 && f.nmod.toNat ≤ 16)) && f.routesOk && f.spans.length ≤ 128 &&
  f.spans.all (fun g =>
    let id := fld g 15 8
    fld g 7 0 < 8 && id < 16 && fld g 31 16 ≤ f.modid.toNat && f.modid.toNat < fld g 31 16 + fld g 47 32 &&
    fld g 31 16 + fld g 47 32 ≤ (if f.flow = 0 then 16 else 4096) &&
    (let cs := coresIn rs (Fin.ofNat 8 (fld g 7 0))
     !cs.isEmpty && cs.all (fun c => match coreSection m rs c with
       | some y => fld (coreReg m y 22) (2 * id + 1) (2 * id) = 2
       | none => (s.core c).syn.scopeOf (Fin.ofNat 16 id) = 2)))

/-- TID of an owner table. -/
def ownerTid (t : List (BitVec 128)) : Nat := fld (t.headD 0) 15 0
/-- VER of an owner table. -/
def ownerVer (t : List (BitVec 128)) : Nat := fld (t.headD 0) 63 32
/-- TOTAL of an owner table. -/
def ownerTotal (t : List (BitVec 128)) : Nat := fld (t.headD 0) 111 64

/-- Entries run from an offset without a gap to TOTAL (09 R237). -/
def entriesOk (total : Nat) : Nat → List (BitVec 128) → Bool
  | o, [] => o = total
  | o, e :: es => fld e 39 0 = o && 1 ≤ fld e 63 40 && fld e 111 64 % 64 = 0 && fld e 127 124 = 0 && entriesOk total (o + fld e 63 40) es

/-- A valid owner table (09 R237). -/
def ownerOk (t : List (BitVec 128)) : Bool :=
  let n := fld (t.headD 0) 31 16
  1 ≤ n && n ≤ 4096 && t.length = n + 4 && fld (t.headD 0) 127 112 = 0 && ((t.drop 1).take 3).all (fun w => w == 0) &&
  entriesOk (ownerTotal t) 0 (t.drop 4)

/-- CODE 0x0B: owner tables. -/
def ownersOk (m : Image) : Bool :=
  let ts := (imgOf m 8).map (ownerWords m)
  ts.all ownerOk && (ts.map ownerTid).Nodup

/-- The CORE sections of an image with their cores. -/
def imgCoreSections (m : Image) (rs : Vector PartsRecord 8) : List (CoreId × Section) :=
  allCores.filterMap (fun c => (coreSection m rs c).map (fun x => (c, x)))

/-- The first code whose rule fails; 0 when all hold. -/
def firstFailing : List (Nat × Bool) → Nat
  | [] => 0
  | (c, ok) :: l => if ok then firstFailing l else c

/-- Stage 4 of R313: 0, or the CODE of R315. -/
def State.structureCode (s : State) (m : Image) (load : Bool) : Nat :=
  let rs := s.recordsFor m
  let secs := imgCoreSections m rs
  let live := fun (c : CoreId) => some ((s.core c).cfg.codeBase.toNat, (s.core c).cfg.codeLen.toNat)
  firstFailing [
    (0x01, !load || partsOk s.grade rs),
    (0x02, !load || bandsOk m rs),
    (0x03, secs.all (fun x => regionsOk m x.2)),
    (0x04, secs.all (fun x => codeOk m x.1 x.2) && (imgCode m).all (bundlesOk m rs live)),
    (0x05, secs.all (fun x => shapesOk m x.2)),
    (0x06, scopesOk m rs secs && (load || (imgOf m 10).all (fun x => (coresIn rs (Fin.ofNat 8 x.part)).all (fun c =>
      (s.core c).syn.scopeOf (Fin.ofNat 16 (secNat m x 0 1)) ≠ 0)))),
    (0x07, secs.all (fun x => messagesOk m x.2)),
    (0x08, !load || s.clockOk m),
    (0x09, (imgOf m 6).all (s.weirOk m)),
    (0x0A, (imgOf m 7).all (s.fabricOk m rs)),
    (0x0B, ownersOk m),
    (0x0C, let r := imgRecord m; r.1 + r.2 ≤ 64)]

/-! ## Stage 5: manifests (02 R44-R47, R416; 13 R417) -/

/-- Configuration table id (02 R47). -/
def Grade.ctid (g : Grade) : Nat := g.code.toNat * 0x10000 + 0xA1

/-- Check 0x05: every declared latency is the part's (01 R20). -/
def routesOk (g : Grade) (m : Image) (x : Section) (r : PartsRecord) : Bool :=
  let same := fun (v w : Nat) => v == 0 || v == w
  (List.range 15).all (fun i => same (secNat m x (64 + 2 * i) 2) (4 * (i + 1))) &&
  allCores.all (fun c =>
    let root := secNat m x (896 + 2 * c.val) 2
    (if r.covers c then same root (4 * depth c) else root == 0) &&
    (List.range 6).all (fun k =>
      let v := secNat m x (128 + 12 * c.val + 2 * k) 2
      if r.covers c && g.fitted k then same v (lq c k) else v == 0))

/-- Check 0x06: capacities within the table and the assize's settings (02 R47, R416). -/
def capacitiesOk (m : Image) (x : Section) (secs : List Section) : Bool :=
  let n := fun (i : Nat) => secNat m x (40 + i) 1
  n 0 ≤ 16 && n 1 ≤ 64 && n 2 ≤ 32 && n 3 ≤ 32 && n 4 ≤ 64 && n 5 ≤ 48 && n 6 ≤ 16 && n 7 ≤ 4 &&
  secs.all (fun c =>
    let q := coreReg m c 26
    n 2 ≤ fld q 5 0 && n 3 ≤ fld q 13 8 &&
    n 4 ≤ ((List.range 64).filter (fun e => coreReg m c (27 + 8 * e) != 0)).length &&
    n 5 ≤ ((List.range 48).filter (fun i => fld (coreReg m c (16 + i / 8)) (8 * (i % 8) + 7) (8 * (i % 8)) ≠ 0)).length &&
    n 6 ≤ ((List.range 16).filter (fun i => fld (coreReg m c 22) (2 * i + 1) (2 * i) ≠ 0)).length)

/-- An input slot of a manifest (R417). -/
def manifestSlot (m : Image) (x : Section) (i : Nat) : InputSlot :=
  let o := 2816 + 32 * i
  { InputSlot.none with
    valid := secNat m x o 1 = 1, cls := BitVec.ofNat 2 (secNat m x (o + 1) 1), core := Fin.ofNat 64 (secNat m x (o + 2) 1),
    h := secNat m x (o + 4) 4, base := secNat m x (o + 8) 8, first := secNat m x (o + 16) 8, spacing := secNat m x (o + 24) 4 }

/-- Check 0x0A: input slots (02 R44, R46). -/
def slotsOk (m : Image) (x : Section) (r : PartsRecord) (secs : List (CoreId × Section)) : Bool :=
  let floor := secNat m x 32 2
  let slots := ((List.range 32).map (fun i => (i, manifestSlot m x i))).filter (fun e => e.2.valid)
  slots.all (fun e =>
    let sl := e.2
    let o := 2816 + 32 * e.1
    secNat m x (o + 1) 1 ≤ 3 && secNat m x (o + 2) 1 < 64 && r.covers sl.core && sl.base % 64 = 0 && 2 ≤ sl.h && 1 ≤ sl.spacing &&
    (sl.cls != 0 || sl.spacing ≤ 45 * floor) &&
    (match secs.lookup sl.core with
     | some sec => insideOne (secRegions m sec) sl.base (128 * sl.h) &&
         !meets sl.base (128 * sl.h) (coreReg m sec 539).toNat (coreReg m sec 540).toNat
     | none => false)) &&
  slots.Pairwise (fun a b => (a.2.core = b.2.core && meets a.2.base (128 * a.2.h) b.2.base (128 * b.2.h)) = false)

/-- Stage 5 for one partition: 0, or the CODE of 02 R44. -/
def State.manifestCode (s : State) (m : Image) (p : PartId) (x : Section) : Nat :=
  let rs := s.recordsFor m
  let r := rs[p]
  let secs := (imgCoreSections m rs).filter (fun c => r.covers c.1)
  let floor := secNat m x 32 2
  let weir := match imgOf m 6 with | w :: _ => imgWeir m w | [] => []
  firstFailing [
    (0x01, secNat m x 0 2 = s.grade.code.toNat && secNat m x 2 2 = 0xA1),
    (0x02, secNat m x 4 4 = s.grade.ctid),
    (0x03, secNat m x 8 1 = r.x0.toNat && secNat m x 9 1 = r.y0.toNat && secNat m x 10 1 = r.w.toNat && secNat m x 11 1 = r.h.toNat &&
      (coresIn rs p).all s.enabled),
    (0x04, allCores.all (fun c => let b := secNat m x 16 8 / 2 ^ c.val % 2 = 1
      match secs.lookup c with | some sec => b == bit (coreReg m sec 25) 0 | none => !b)),
    (0x05, routesOk s.grade m x r),
    (0x06, capacitiesOk m x (secs.map Prod.snd)),
    (0x07, floor ≤ (imgClock m).1),
    (0x08, (secNat m x 34 1 = 1) == r.refm && (!r.refm || secNat m x 36 4 ≤ 1755 * floor / 1000)),
    (0x09, (List.range 384).all (fun j => secNat m x (1024 + 2 * j) 2 ≤ 475000 / max 1 (s.imgCeil m)) &&
      (List.range 256).all (fun n => secNat m x (1792 + 4 * n) 4 ≤ (weir.getD n .reset).budget.toNat)),
    (0x0A, slotsOk m x r secs)]

/-- Stage 5 over the affected valid partitions. -/
def State.manifestsCode (s : State) (m : Image) : Nat :=
  allParts.foldl (fun code p =>
    if code ≠ 0 then code
    else match imgPart m 1 p with
      | some x => if imgAffects m p then s.manifestCode m p x else 0
      | none => 0) 0

/-! ## Stage 6: state (R316, R321, R322) -/

/-- The bytes of the first section of a type; none where there is none. -/
def imgBytes (m : Image) (type : Nat) : List Byte := match imgOf m type with | x :: _ => secBytes m x | [] => []

/-- A partition runs or stands in its halt hold. -/
def State.busyPart (s : State) (p : PartId) : Bool := (s.part p).pstate == .running || (s.part p).pstate == .halted

/-- Whether a partition outside PMASK keeps its record, MANIFEST and CORE sections. -/
def State.sameOutside (s : State) (m : Image) (p : PartId) : Bool :=
  imgParts m p == (s.part p).pr &&
  (let old := s.asz.kept.lookup p.val
   let rs := s.recordsFor m
   let eq := fun (x : Option Section) (y : Option (Image × Section)) =>
     match x, y with
     | none, _ => true
     | some a, some (im, b) => secBytes m a == secBytes im b
     | some _, none => false
   eq (imgPart m 1 p) (old.bind (fun im => (imgPart im 1 p).map (fun b => (im, b)))) &&
   (coresIn rs p).all (fun c => eq (coreSection m rs c)
     (old.bind (fun im => (coreSection im (s.recordsFor im) c).map (fun b => (im, b))))))

/-- Stage 6 of a LOAD: 0, or the CODE of R316. -/
def State.loadStateCode (s : State) (m : Image) : Nat :=
  let aff := allParts.filter (imgAffects m)
  let dieSame := match s.asz.loaded with
    | some old => [2, 5, 6, 7, 9].all (fun t => imgBytes m t == imgBytes old t)
    | none => false
  firstFailing [
    (0x07, aff.all (fun p => !(s.part p).inrst)),
    (0x01, aff.all (fun p => !s.busyPart p)),
    (0x02, dieSame || allParts.all (fun p => !s.busyPart p)),
    (0x03, allParts.all (fun p => imgAffects m p || s.sameOutside m p))]

/-- The class of each granule of a slice under a CORE section's regions (04 R87). -/
def granulesUnder (m : Image) (x : Section) (old : BitVec 448) : BitVec 448 :=
  (List.range 16).foldl (fun g k => let r := coreReg m x k
    if bit r 63 then (List.range (fld r 8 0)).foldl (fun g i => setBit g (fld r 24 16 + i) (fld r 62 61 = 1)) g else g) old

/-- Whether a transaction's CORE section changes only what R321 lets it: of CFG_REGIONn the bounds, not VALID or CLASS. -/
def State.coreAllowed (s : State) (m : Image) (c : CoreId) (x : Section) : Bool :=
  let k := s.core c
  let k' := setCore m x k
  (k.cfg.region.toList.zip k'.cfg.region.toList).all (fun r => fld r.1 63 61 = fld r.2 63 61) &&
  granulesUnder m x k.cfg.granule == k.cfg.granule && k'.syn.cap == k.syn.cap && k'.syn.scope == k.syn.scope &&
  k'.mu == k.mu

/-- The code region of a core after a transaction. -/
def State.codeAfter (s : State) (m : Image) (c : CoreId) : Nat × Nat :=
  match coreSection m (s.recordsFor m) c with
  | some x => ((coreReg m x 539).toNat, (coreReg m x 540).toNat)
  | none => ((s.core c).cfg.codeBase.toNat, (s.core c).cfg.codeLen.toNat)

/-- R321 for a transaction of partition p. -/
def State.txnAllowed (s : State) (m : Image) (p : PartId) : Bool :=
  let cores := s.coresOf p
  cores.all (fun c => match coreSection m (s.recordsFor m) c with | some x => s.coreAllowed m c x | none => true) &&
  (imgCode m).all (fun x => match epCore x.core with
    | some c => let r := s.codeAfter m c; let g := (s.core c).cfg; !meets r.1 r.2 g.codeBase.toNat g.codeLen.toNat
    | none => false) &&
  (match imgPart m 10 p with
   | some x => secNat m x 1 1 = 0 || (cores.zipIdx).all (fun e =>
       let ep := secNat m x (64 + 8 * e.2) 8
       let r := s.codeAfter m e.1
       ep % 64 = 0 && sliceBase e.1 + r.1 ≤ ep && ep < sliceBase e.1 + r.1 + r.2)
   | none => false) &&
  ((imgOf m 8).map (ownerWords m)).all (fun t => s.asz.owners.all (fun o => ownerTid o ≠ ownerTid t || ownerVer o < ownerVer t)) &&
  (match imgOf m 6 with
   | w :: _ => secNat m w 0 8 = s.asz.energy.toNat && (List.range 256).all (fun n =>
       let old := (s.asz.acts.lookup n).getD .reset
       let new := activityOf (secNat m w (8 + 8 * n) 8) old
       new == old || old.owner.toNat = p.val)
   | [] => true)

/-- Stage 6 of an ARM: 0, or its CODE (R316, R321, R322). -/
def State.armStateCode (s : State) (m : Image) : Nat :=
  match allParts.find? (imgAffects m) with
  | none => 0x01
  | some p => firstFailing [
      (0x07, !(s.part p).inrst),
      (0x04, s.txnAllowed m p),
      (0x05, imgNat m 0x18 8 = s.asz.digest.toNat),
      (0x01, (s.part p).pstate == .running),
      (0x06, (s.part p).armed == none)]

/-! ## The first pass (R313, R378) -/

/-- The image digest (R307): SHA-384 over bytes 0 to LENGTH - 129. -/
def imgDigest (m : Image) : BitVec 384 := sha384 (imgRead m 0 (m.len - 128))

/-- The digest prefix (R307): its first 8 bytes, the first of them in bits 7:0 as in every field of an image (R306; PRESUMED, log 11). -/
def digestPrefix (m : Image) : BitVec 64 := BitVec.ofNat 64 (leNat ((leBytes 48 (imgDigest m).toNat).reverse.take 8))

/-- Whether the assize verification key can be read (16 R374, R378). -/
def State.keyReadable (s : State) : Bool := s.sec.verifyKey && s.sec.storageKey && (s.sec.lcs == 1 || s.sec.lcs == 2)

/-- n bytes of an image as a number, the first most significant, as the ECDSA standard writes integers (PRESUMED, log 11). -/
def imgBig (m : Image) (off n : Nat) : Nat := beNat (imgRead m off n)

/-- Whether SIG, r in 48 B then s in 48 B, verifies over the digest with the assize verification key (R306, R307). Its key identifier is not checked: the part holds one such key. -/
def State.sigOk (s : State) (m : Image) : Bool :=
  ecdsaOk s.sec.assizeKey (imgDigest m).toNat (imgBig m (m.len - 128) 48) (imgBig m (m.len - 80) 48)

/-- Stage and CODE of the first pass: (0, 0) when every check passes; (2, 0) is a signature failure. -/
def State.firstPass (s : State) (m : Image) (load : Bool) : Nat × Nat :=
  if !formatOk m (s.recordsFor m) load then (1, 0x01)
  else if !s.keyReadable then (2, 0x02)
  else if !s.sigOk m then (2, 0x00)
  else if !(imgNat m 8 2 = s.grade.code.toNat && imgNat m 0xA 2 = 0xA1 && imgNat m 0xC 4 = s.grade.ctid) then (3, 0x01)
  else
    let st := s.structureCode m load
    if st ≠ 0 then (4, st)
    else
      let mf := if load then s.manifestsCode m else 0
      if mf ≠ 0 then (5, mf)
      else
        let z := if load then s.loadStateCode m else s.armStateCode m
        if z ≠ 0 then (6, z) else (0, 0)

end Sys2Proof.Machine
end

