-- ==== Sys2Proof/Machine/Link.lean ====
section
/-! DEFINITION. Link.lean: fabric slots, the routes of the FABRIC section, and the tally of spanning barriers at a manager module (10 R256; 13 R323; 15 R355, R356, R359-R361). -/

namespace Sys2Proof.Machine

/-! ## Slots (15 R355, R356) -/

/-- A barrier slot: arrival (4) or completion (5). The first two bytes of its payload name the module that sends it, which its header does not (DESIGN CHOICE, log 28). -/
def barSlot (stype src : Nat) (p : PartId) (id : Fin 16) (commit : Bool) (token : BitVec 32) : FabSlot :=
  mkSlot stype 3 0 0 (p.val * 2 ^ 56 + id.val * 2 ^ 48 + commit.toNat * 2 ^ 40 + token.toNat) (bytesLine (beBytes 2 src))

/-- Partition of a barrier slot. -/
def barPart (x : FabSlot) : PartId := Fin.ofNat 8 ((slotAddr x) / 2 ^ 56)
/-- Barrier id of a barrier slot. -/
def barId (x : FabSlot) : Fin 16 := Fin.ofNat 16 ((slotAddr x) / 2 ^ 48)
/-- Commit bit of a barrier slot. -/
def barCommit (x : FabSlot) : Bool := (slotAddr x) / 2 ^ 40 % 2 == 1
/-- TOKEN of a barrier slot. -/
def barToken (x : FabSlot) : BitVec 32 := BitVec.ofNat 32 (slotAddr x)

/-- Whether a slot is a barrier arrival or completion. -/
def isBarrier (x : FabSlot) : Bool := (slotType x) = 4 || (slotType x) = 5

/-! ## Flits (15 R355) -/

/-- The 80 bytes of a slot. -/
def slotBytes (x : FabSlot) : List Byte := leBytes 16 x.hdr.toNat ++ lineBytes x.payload

/-- The slot that 80 bytes spell. -/
def readSlot (l : List Byte) : FabSlot := { hdr := BitVec.ofNat 128 (leNat (l.take 16)), payload := bytesLine (l.drop 16) }

/-- The header of a flit as one number, bits 47:0. -/
def flitWord (f : Flit) : Nat :=
  f.epoch.toNat * 2 ^ 40 + f.seq.toNat * 2 ^ 28 + f.ackSeq.toNat * 2 ^ 16 + f.av.toNat * 2 ^ 15 + f.rnak.toNat * 2 ^ 14 +
    f.ft.toNat * 2 ^ 12 + f.ck.toNat * 2 ^ 8 + f.ccnt.toNat

/-- The 256 bytes of a flit: header, three slots, CRC, parity. -/
def flitBytes (f : Flit) : List Byte :=
  let body := beBytes 6 (flitWord f) ++ f.slots.flatMap slotBytes
  let checked := body ++ beBytes 4 (Config.flitCrc body).toNat
  checked ++ beBytes 6 (Config.flitFec checked).toNat

/-- The flit that 256 bytes spell. -/
def readFlit (l : List Byte) : Flit :=
  let h := BitVec.ofNat 48 (beNat (l.take 6))
  { epoch := h.extractLsb' 40 8, seq := h.extractLsb' 28 12, ackSeq := h.extractLsb' 16 12, av := bit h 15, rnak := bit h 14,
    ft := h.extractLsb' 12 2, ck := h.extractLsb' 8 4, ccnt := h.extractLsb' 0 8
    slots := [readSlot ((l.drop 6).take 80), readSlot ((l.drop 86).take 80), readSlot ((l.drop 166).take 80)] }

/-! ## Routes (15 R361) -/

/-- The next sequence number of a stream. -/
def State.e2eNext (s : State) (key : Nat) : BitVec 16 := (s.fab.e2e.lookup key).getD 0

/-- A slot of this module waits at a port, with the next sequence number of its stream. -/
def State.queueSlot (s : State) (n : PortId) (dst : Nat) (x : FabSlot) : State :=
  let key := e2eKey s.fab.cfg.modid.toNat dst (slotCh x) (slotCls x)
  let v := s.e2eNext key
  let x := { x with hdr := x.hdr ||| BitVec.ofNat 128 (slotPut 2 2 v.toNat) }
  let s := s.modPort n (fun q => { q with tx := q.tx ++ [x] })
  { s with fab := { s.fab with e2e := putKey key (v + 1) s.fab.e2e } }

/-- A slot sent towards a module; nothing where there is no port towards it. -/
def State.sendSlot (s : State) (dst : Nat) (x : FabSlot) : State :=
  match s.toward dst with
  | some n => s.queueSlot n dst x
  | none => s

/-! ## Received slots and their streams (15 R356, R360) -/

/-- n bytes of a payload from byte b, most significant byte first (00 R9). -/
def payField (l : Line) (b n : Nat) : Nat := beNat (((lineBytes l).drop b).take n)

/-- A time slot: its sender's stamp in ADDR (R356), and in the payload, most significant byte first, t1, t2, CORR, the asking module, and whether it is an answer (DESIGN CHOICE, log 28). -/
def timeSlot (addr t1 t2 corr asker : Nat) (back : Bool) : FabSlot :=
  mkSlot 6 3 0 0 addr (bytesLine (beBytes 8 t1 ++ beBytes 8 t2 ++ beBytes 8 corr ++ beBytes 2 asker ++ beBytes 1 back.toNat))

/-- The module whose exchange a time slot belongs to. -/
def slotAsker (x : FabSlot) : Nat := payField x.payload 24 2

/-- Whether a time slot is an answer. -/
def slotBack (x : FabSlot) : Bool := payField x.payload 26 1 == 1

/-- Source module of a slot: of a message or line slot as its header names it, of a barrier or time slot as its payload does; management commands come from the manager module. -/
def State.slotSource (s : State) (x : FabSlot) : Nat :=
  match slotType x with
  | 1 => (slotMsg x).smod
  | 2 => slotAddr x / 2 ^ 48 % 4096
  | 3 => slotAddr x / 2 ^ 48 % 4096
  | 6 => if slotBack x then s.fab.cfg.mgrid.toNat else slotAsker x
  | 7 => s.fab.cfg.mgrid.toNat
  | _ => payField x.payload 0 2

/-- Key of the stream of a received slot in a switched fabric. -/
def State.streamOf (s : State) (x : FabSlot) : Option Nat :=
  if s.fab.cfg.flow = 0 then none else some (e2eKey (s.slotSource x) s.fab.cfg.modid.toNat (slotCh x) (slotCls x))

/-- The number that a stream has come to, as a slot of it finds it: streams begin with 0. A slot sets it where a link reset may have lost some, or where the stream is new to this module and too far on for it (DESIGN CHOICE, log 60). -/
def State.place (s : State) (key : Nat) (number : BitVec 16) : BitVec 16 :=
  if s.fab.resync.contains key then number
  else (s.fab.e2e.lookup key).getD (if number.toNat ≤ 256 then 0 else number)

/-- How far a slot of a switched fabric lies ahead of its place in its stream; none in direct mode, where slots come in order. -/
def State.aheadBy (s : State) (x : FabSlot) : Option Nat :=
  (s.streamOf x).map (fun key => let v := BitVec.ofNat 16 (slotE2e x); (v - s.place key v).toNat)

/-- A slot more than 256 places away from its own (15 R360). -/
def State.misplaced (s : State) (x : FabSlot) : Bool := match s.aheadBy x with | some d => 256 < d | none => false

/-- A slot leaves the port's queue: its credit is owed back, its stream goes on. -/
def State.popSlot (s : State) (n : PortId) (i : Nat) (x : FabSlot) : State :=
  let s := s.modPort n (fun q => { q with
    rx := q.rx.eraseIdx i, rxNew := q.rxNew.erase x, barred := q.barred.erase x, creditOwed := q.creditOwed + 1 })
  match s.streamOf x with
  | some key => { s with fab := { s.fab with
      e2e := putKey key (BitVec.ofNat 16 (slotE2e x) + 1) s.fab.e2e, resync := s.fab.resync.filter (fun k => k != key) } }
  | none => s

/-- A NAK to the sender of a slot: the endpoint that sent a message; else its module's manager die, its ARG then the kind of the slot (DESIGN CHOICE, log 60). -/
def State.nakSlot (s : State) (x : FabSlot) (stat : Nat) : State :=
  let m := slotMsg x
  if slotType x = 1 then
    s.sendSlot m.smod (msgSlot { hdr := mkHdr 3 false m.cls.val m.smod m.sep m.dmod m.dep stat m.arg, payload := 0, gen := 0 })
  else
    let far := s.slotSource x
    s.sendSlot far (msgSlot { hdr := mkHdr 3 false (slotCls x) far 64 s.fab.cfg.modid.toNat 64 stat (slotType x), payload := 0, gen := 0 })

/-! ## Spanning barriers (10 R255, R256; 13 R323) -/

/-- First member and member count of the span group of a barrier. -/
def State.spanGroup (s : State) (p : PartId) (id : Fin 16) : Option (Nat × Nat) :=
  (s.fab.cfg.spans.find? (fun g => fld g 7 0 = p.val && fld g 15 8 = id.val)).map (fun g => (fld g 31 16, fld g 47 32))

/-- A completion is delivered to the die root, which marks it ready at the hold controller. -/
def State.spanDeliver (s : State) (p : PartId) (id : Fin 16) (commit : Bool) : State :=
  if (s.part p).live && (s.part p).roots[id].spanWaiting then
    s.modPart p (fun q => { q with roots := q.roots.set id { q.roots[id] with spanReady := true, spanCommit := commit } })
  else s

/-- The manager module sends a completion to every module of the group, itself included. -/
def State.spanComplete (s : State) (p : PartId) (id : Fin 16) (first count : Nat) (commit : Bool) : State :=
  (List.range count).foldl (fun s i =>
    if first + i = s.fab.cfg.modid.toNat then s.spanDeliver p id commit
    else s.sendSlot (first + i) (barSlot 5 s.fab.cfg.modid.toNat p id commit 0)) s

/-- The manager module counts one module's arrival; the last one completes the barrier: commit only if every module has armed a transaction with the same token. -/
def State.spanCountOne (s : State) (p : PartId) (id : Fin 16) (armed : Bool) (token : BitVec 32) : State :=
  match s.spanGroup p id with
  | none => s
  | some (first, count) =>
    let old := s.fab.spanCount.find? (fun t => t.part == p && t.id == id)
    let rest := s.fab.spanCount.filter (fun t => !(t.part == p && t.id == id))
    let t : SpanTally := match old with
      | some t => { t with count := t.count + 1, commit := t.commit && armed && t.token == token }
      | none => { part := p, id := id, count := 1, commit := armed, token := token }
    if count ≤ t.count then ({ s with fab := { s.fab with spanCount := rest } }).spanComplete p id first count t.commit
    else { s with fab := { s.fab with spanCount := rest ++ [t] } }

/-- An arrival of a module on its way to the manager module. -/
def State.spanForward (s : State) (p : PartId) (id : Fin 16) (armed : Bool) (token : BitVec 32) : State :=
  if s.fab.cfg.role = 1 then s.spanCountOne p id armed token
  else s.sendSlot s.fab.cfg.mgrid.toNat (barSlot 4 s.fab.cfg.modid.toNat p id armed token)

/-- The die root sends this module's arrival: its manager die reports the transaction armed for the id with its token. -/
def State.spanArrive (s : State) (p : PartId) (id : Fin 16) : State :=
  match (s.part p).armed with
  | some a => if a.id = id then s.spanForward p id true a.token else s.spanForward p id false 0
  | none => s.spanForward p id false 0

end Sys2Proof.Machine
end

