-- ==== Sys2Proof/Machine/Barrier.lean ====
section
/-! DEFINITION. Barrier.lean: what happens to waits, signals and barriers between bundles (10 R241-R243, R247, R251-R256), the commit of a transaction (13 R323), and the meanings of their commands. -/

namespace Sys2Proof.Machine

/-! ## Signals (10 R241-R243) -/

/-- The mark that a change of a counter was refused in the present cycle: later changes of steps 1 and 2 are lost. -/
def resLost (c : CoreId) (n : Nat) : Nat := 0xC00000 + 64 * c.val + n

/-- A signal of step 1 or 2 is applied to a counter, or refused with a halt. -/
def State.applySignal (s : State) (p : PartId) (c : CoreId) (n amt : Nat) (refuse : State → State) : State :=
  if (s.part p).used.contains (resLost c n) then s
  else if (s.core c).sigCap n < (s.core c).syn.count n + amt then (refuse s).take p (resLost c n)
  else s.modSyn c (fun y => y.setCount n (y.count n + amt))

/-- The first signal due at a core: by cycle, then sender. -/
def Part.nextSignal (q : Part) (c : CoreId) : Option Signal :=
  (q.signals.filter (fun x => x.target == c && x.at_ ≤ q.now)).foldl (fun o x => match o with
    | none => some x
    | some y => if x.at_ < y.at_ || (x.at_ == y.at_ && x.sender < y.sender) then some x else o) none

/-- SIGNAL_ARRIVAL (10 R241-R243): a remote signal takes effect at its counter; one that would pass the capacity halts its sender in flight. -/
def execSignalArrival (core : CoreId) (s : State) : Result :=
  match s.liveOf core with
  | none => .next s
  | some p =>
    match (s.part p).nextSignal core with
    | none => .next s
    | some x =>
      let s := s.modPart p (fun q => { q with signals := q.signals.erase x })
      .next (s.applySignal p core x.n.val x.amt.toNat (fun s => s.haltCore x.sender true 1 0x07 x.bundle x.n.val))

/-- WAIT_TIMEOUT (10 R247): the wait in progress completes by its timeout: K[KD] = 1, counters and barriers unchanged. -/
def execWaitTimeout (core : CoreId) (s : State) : Result :=
  let bits := (s.core core).ctl.wait
  if (s.core core).ctl.waiting && s.synEval core bits == .done (some true) && s.endedByTimeout core bits then
    issueSlot core (s.synCauses core bits) (fun s => s.synDone core bits (some true)) s
  else .next s

/-! ## Commit of a transaction (13 R320-R323) -/

/-- A partition's owner tables registered in place of those with the same TID. -/
def registerOwners (old new : List (List (BitVec 128))) : List (List (BitVec 128)) :=
  old.filter (fun o => !new.any (fun n => ownerTid n == ownerTid o)) ++ new

/-- What a commit changes beside the cores: owner tables, the partition's weir activities. -/
def State.commitDie (s : State) (p : PartId) (m : Image) : State :=
  let acts := match imgOf m 6 with
    | w :: _ => (List.range 256).foldl (fun as n =>
        let old := (as.lookup n).getD .reset
        if old.owner.toNat = p.val then putKey n (activityOf (secNat m w (8 + 8 * n) 8) old) as else as) s.asz.acts
    | [] => s.asz.acts
  { s with asz := { s.asz with owners := registerOwners s.asz.owners ((imgOf m 8).map (ownerWords m)), acts := acts } }

/-- The number of a core among its partition's, in core-id order. -/
def State.coreIndex (s : State) (p : PartId) (c : CoreId) : Nat := ((s.coresOf p).takeWhile (fun k => k != c)).length

/-- EP[c] of a transaction with EPV = 1. -/
def State.newEntry (s : State) (p : PartId) (c : CoreId) (m : Image) : Option (BitVec 48) :=
  match imgPart m 10 p with
  | some x => if secNat m x 1 1 = 1 then some (BitVec.ofNat 48 (secNat m x (64 + 8 * s.coreIndex p c) 8)) else none
  | none => none

/-- A core takes its own new state; with EPV = 1 the bundle after the one at hand is EP[c]. The bundle at hand, which waits for the completion or goes before EP[c], is still fetched from the code region before (13 R323). A branch or REP in it meets the redirect as one in a delay bundle does (03 R64), and open repeat levels stay open across it (DESIGN CHOICE, log 94). -/
def State.commitCore (s : State) (p : PartId) (c : CoreId) (m : Image) : State :=
  let s' := match coreSection m (s.recordsFor m) c with
    | some x => s.modCore c (setCore m x)
    | none => s
  let g := (s.core c).cfg
  let stays := (s.core c).ctl.waiting || (s.newEntry p c m).isSome
  let s' := s'.modCfg c (fun g' => { g' with
    armedCode := none, oldCode := if stays then some (g.codeBase.toNat, g.codeLen.toNat) else none })
  match s.newEntry p c m with
  | some ep => if (s.core c).ctl.finished then s'
    else s'.modCtl c (fun u => { u with redirect := some { left := 1, target := some ep, empties := false } })
  | none => s'

/-- The armed transaction of a partition commits at an issue count. -/
def State.commitTxn (s : State) (p : PartId) (count : Nat) : State :=
  match (s.part p).armed with
  | some a => (s.txnOutcome p 1 count).commitDie p a.img
  | none => s

/-! ## Barriers (10 R251-R256) -/

/-- Whether every member of a barrier counts as arrived at the arrival that reaches the root in cycle r. -/
def State.rootFull (s : State) (p : PartId) (arrived : BitVec 64) (r : Nat) : Bool :=
  (s.coresOf p).all (fun c => let u := (s.core c).ctl
    bit arrived c.val || (u.finished && u.finCyc + 4 * depth c ≤ r))

/-- BARRIER_ROOT_ARRIVAL (10 R252): a core's arrival is counted; the last member's makes the root complete, or on a spanning id sends the module's arrival on (R256). -/
def execBarrierRootArrival (core : CoreId) (id : Fin 16) (s : State) : Result :=
  match s.liveOf core with
  | none => .next s
  | some p =>
    let r := (s.part p).roots[id]
    match r.coming.find? (fun x => x.1 == core && x.2 ≤ (s.part p).now) with
    | none => .next s
    | some x =>
      let arrived := setBit r.arrived core.val true
      let root := { r with coming := r.coming.erase x, arrived := arrived }
      if s.rootFull p arrived x.2 then
        if (s.core core).syn.scopeOf id = 2 then
          .next ((s.modPart p (fun q => { q with roots := q.roots.set id { root with arrived := 0 } })).spanArrive p id)
        else .next (s.modPart p (fun q => { q with roots := q.roots.set id { root with arrived := 0, full := some x.2 } }))
      else .next (s.modPart p (fun q => { q with roots := q.roots.set id root }))

/-- A completion reaches a core: its arrival is completed, and it takes the new state of a transaction committed by it. -/
def State.tell (s : State) (p : PartId) (id : Fin 16) (x : CoreId × Nat) : State :=
  let c := x.1
  let s := s.modSyn c (fun y => { y with bar := if y.bar[id] == .arrived then y.bar.set id .completed else y.bar })
  let s := match (s.part p).committed with
    | some a => if a.id = id then s.commitCore p c a.img else s
    | none => s
  s.modPart p (fun q =>
    let going := q.roots[id].going.erase x
    { q with
      roots := q.roots.set id { q.roots[id] with going := going }
      committed := match q.committed with
        | some a => if a.id = id && going.isEmpty then none else some a
        | none => none })

/-- BARRIER_COMPLETION_SEND (10 R252, 13 R323): in cycle r + 1 the root sends the completion, and a transaction armed for the id commits. -/
def execBarrierCompletionSend (p : PartId) (id : Fin 16) (s : State) : Result :=
  let q := s.part p
  match q.roots[id].full with
  | none => .next s
  | some r =>
    if q.live && q.cycDone && r + 1 ≤ q.now then
      let s := q.roots[id].going.foldl (fun s x => s.tell p id x) s
      let s := match q.armed with
        | some a => if a.id = id then s.commitTxn p q.count else s
        | none => s
      .next (s.modPart p (fun q => { q with
        roots := q.roots.set id { q.roots[id] with
          full := none, going := (s.coresOf p).map (fun c => (c, r + 1 + 4 * depth c)) } }))
    else .next s

/-- BARRIER_COMPLETION_ARRIVAL (10 R251, R252): at r + 1 + 4d the completion reaches the core. -/
def execBarrierCompletionArrival (core : CoreId) (id : Fin 16) (s : State) : Result :=
  match s.liveOf core with
  | none => .next s
  | some p =>
    match (s.part p).roots[id].going.find? (fun x => x.1 == core && x.2 ≤ (s.part p).now) with
    | some x => .next (s.tell p id x)
    | none => .next s

/-- SPAN_COMPLETION_DUE (10 R251, R255; 13 R323): at its due count a ready spanning completion is consumed: the id is idle in every core, an armed transaction commits or is aborted. -/
def execSpanCompletionDue (p : PartId) (id : Fin 16) (s : State) : Result :=
  let q := s.part p
  let r := q.roots[id]
  if q.live && !q.cycDone && q.issuing && r.spanWaiting && r.spanReady && r.spanDue ≤ q.icount.toNat then
    let s := (s.coresOf p).foldl (fun s c => s.modSyn c (fun y => { y with
      bar := if y.bar[id] == .arrived then y.bar.set id .idle else y.bar })) s
    let s := s.modPart p (fun q => { q with
      roots := q.roots.set id { r with spanWaiting := false, spanReady := false, spanCommit := false } })
    match q.armed with
    | some a =>
      if a.id ≠ id then .next s
      else if r.spanCommit then
        .next ((((s.coresOf p).foldl (fun s c => s.commitCore p c a.img) (s.commitTxn p q.icount.toNat))).modPart p
          (fun q => { q with committed := none }))
      else .next (s.txnOutcome p 4 0)
    | none => .next s
  else .next s

end Sys2Proof.Machine
end

