-- ==== Sys2Proof/Machine/Hold.lean ====
section
/-! DEFINITION. Hold.lean: the hold controller (02 R33-R41), replay of a recording (12 R304, R305), and the meanings of SLUICE_HOLD_START, HELD_CYCLE and HOLD_RELEASE. -/

namespace Sys2Proof.Machine

/-! ## Replay (12 R301, R302, R304, R305) -/

/-- TYPE of a record. -/
def recType (r : List Byte) : Nat := (byteAt r 0).toNat
/-- CORE of a record. -/
def recCore (r : List Byte) : CoreId := Fin.ofNat 64 (byteAt r 1).toNat
/-- Position of a record. -/
def recPos (r : List Byte) : Nat := leNat ((r.drop 8).take 8)
/-- An 8-byte word of a record's payload. -/
def recWord (r : List Byte) (i : Nat) : Nat := leNat ((r.drop (16 + 8 * i)).take 8)

/-- A replay diverges at a position: the partition is stopped, and its vector raised (12 R305; 15 R348). -/
def State.diverge (s : State) (p : PartId) (pos : Nat) : State :=
  let s := (s.stopPart p).raise p.val
  ({ s with rr := { s.rr with diverged := true, div := BitVec.ofNat 64 pos } }).event 0x305 3 (some p) none
    (leBytes 1 p.val ++ leBytes 7 0 ++ leBytes 8 pos)

/-- One recorded write or signal applied. -/
def State.applyRecord (s : State) (p : PartId) (r : List Byte) : State :=
  if recType r = 2 then s.putLine (recWord r 0) (bytesLine ((r.drop 32).take 64))
  else if recType r = 3 then
    let n := recWord r 0 % 64
    s.applySignal p (recCore r) n (recWord r 0 / 256 % 256) (fun s => s.haltCore (recCore r) true 1 0x07 (s.core (recCore r)).ctl.pc n)
  else s

/-- The halt that a HALT record tells of (12 R301; 03 R75). -/
def recordedHaltOf (r : List Byte) : HaltFound :=
  let w := BitVec.ofNat 64 (recWord r 0)
  { core := recCore r, inflight := bit w 13, slot := fld w 10 8, reason := fld w 7 0, addr := BitVec.ofNat 48 (recWord r 1),
    detail := recWord r 3, handler := false }

/-- The halts of handler operations recorded at the issue count at hand: those of a held cycle have it as their position too (12 R301, R305). -/
def State.recordedHalts (s : State) (p : PartId) (held : Bool) : List HaltFound :=
  let n := (s.part p).icount.toNat
  if s.replaying p then
    (s.rr.region.filter (fun r => recType r == 6 && recWord r 2 == n && (recPos r == n) == held)).map recordedHaltOf
  else []

/-- They halt their cores. -/
def State.replayHalts (s : State) (p : PartId) (held : Bool) : State :=
  (s.recordedHalts p held).foldl (fun s h => s.haltNow p h false) s

/-- The records of a position applied in sequence, in replay. -/
def State.applyRecords (s : State) (p : PartId) : State :=
  if s.replaying p then
    ((s.rr.region.filter (fun r => recPos r == (s.part p).icount.toNat)).foldl (fun s r => s.applyRecord p r) s).replayHalts p false
  else s

/-- The cause that a HOLD record's code names. -/
def causeOfCode : Nat → HoldCause
  | 1 => .halt
  | 2 => .late
  | 3 => .retry
  | 4 => .gather
  | 5 => .forced
  | _ => .pend

/-- The recorded holds before a bundle: causes and lengths. -/
def State.heldScript (s : State) (p : PartId) (count : Nat) : List (HoldCause × Nat) :=
  if s.replaying p then
    (s.rr.region.filter (fun r => recType r == 5 && recPos r == count)).map (fun r => (causeOfCode (recWord r 0), recWord r 1))
  else []

/-- In replay, the holds recorded before the bundle at hand are taken. -/
def State.takeScript (s : State) (p : PartId) : State :=
  let n := (s.part p).icount.toNat
  match s.heldScript p n with
  | [] => s
  | sc@((cause, _) :: _) => s.modPart p (fun q => { q with
      holds := if q.holds.any (fun h => h.before = n) then
          q.holds.map (fun h => if h.before = n then { h with script := sc } else h)
        else q.holds ++ [{ before := n, items := [], begun := false, ends := none, last := cause, run := 0, script := sc }] })

/-- The issue count at which the recorded task ended. -/
def State.recordedEnd (s : State) : Option Nat := (s.rr.region.find? (fun r => recType r == 7)).map (fun r => recWord r 0)

/-- The first position after the recorded end: no bundle issued there. -/
def State.endPosition (s : State) : Option Nat := (s.rr.region.find? (fun r => recType r == 7)).map recPos

/-- Whether a HALT record tells of a halt at an issue count. -/
def State.recordedHalt (s : State) (count : Nat) : Bool := s.rr.region.any (fun r => recType r == 6 && recWord r 2 == count)

/-- Whether a task that ends at an issue count in replay ends where the recording says. -/
def State.endsRight (s : State) (p : PartId) (count : Nat) : Bool := !s.replaying p || s.recordedEnd == some count

/-- Whether a task that halts at an issue count in replay halts where the END or a HALT record says. -/
def State.haltsRight (s : State) (p : PartId) (count : Nat) : Bool := s.endsRight p count || s.recordedHalt count

/-- A task in replay runs on where the recorded one had ended; the bundles that follow a halt (02 R39) do not. -/
def State.pastEnd (s : State) (p : PartId) : Bool :=
  s.replaying p && (s.part p).pstate == .running && (match s.endPosition with | some e => e ≤ (s.part p).icount.toNat | none => true)

/-! ## Items and causes (02 R33, R34, R40) -/

/-- The occurrence of a slot that is due at an issue count. -/
def InputSlot.occurrence (sl : InputSlot) (d : Nat) : Nat := (d - sl.first) / max 1 sl.spacing

/-- Whether an occurrence of a slot is due at d: the first no earlier than count 8 (02 R34). -/
def InputSlot.dueAt (sl : InputSlot) (d : Nat) : Bool :=
  sl.valid && ((sl.k = 0 && d = max sl.first 8) ||
    (sl.first < d && (d - sl.first) % max 1 sl.spacing = 0 && sl.k ≤ sl.occurrence d))

/-- Whether an item due at d is ready. -/
def State.itemReady (s : State) (p : PartId) (d : Nat) : DueItem → Bool
  | .block c id => !(s.core c).str.blocks.any (fun b => b.id == id)
  | .slot n => let sl := (s.part p).slots[n]; sl.occurrence d < sl.readyFor
  | .span id => (s.part p).roots[id].spanReady

/-- A fabric port replays flits that carry the messages of a spanning barrier (15 R357). -/
def State.retrying (s : State) (p : PartId) (id : Fin 16) : Bool :=
  s.fab.ports.toList.any (fun q => q.replaying.any (fun f => f.slots.any (fun x => isBarrier x && barPart x == p && barId x == id)))

/-- A fabric port replays flits that carry lines of an input slot's halves (15 R357; DEDUCED, log 89). -/
def State.slotRetry (s : State) (p : PartId) (n : Fin 32) : Bool :=
  let sl := (s.part p).slots[n]
  s.fab.ports.toList.any (fun q => q.replaying.any (fun f => f.slots.any (fun x =>
    let lo := sliceBase sl.core + sl.base
    (slotType x = 2 || slotType x = 3) && lo ≤ slotAddr x % 2 ^ 48 && slotAddr x % 2 ^ 48 < lo + 128 * sl.h)))

/-- The cause of an item that is not ready, by its place in 02 R40: 1 link-retry wait, 2 late input, 3 gather overrun, 4 forced refresh, 5 pending range, 6 a forced refresh that a hold for another cause brought. -/
def State.itemRank (s : State) (p : PartId) : DueItem → Nat
  | .slot n => if s.slotRetry p n then 1 else 2
  | .span id => if s.retrying p id then 1 else 2
  | .block c id =>
    match s.blockOf c id with
    | none => 5
    | some b =>
      if b.chain.isSome && (s.core c).str.budgets.any (fun g => g.cid == b.cid && g.past) then 3
      else match b.forced with
        | some false => 4
        | none => 5
        | some true => 6

/-- The cause of a rank. -/
def causeOf : Nat → HoldCause
  | 0 => .halt
  | 1 => .retry
  | 2 => .late
  | 3 => .gather
  | 5 => .pend
  | _ => .forced

/-- The first active cause among items due at d. -/
def State.activeCause (s : State) (p : PartId) (d : Nat) (items : List DueItem) : Option HoldCause :=
  (leastOf ((items.filter (fun i => !s.itemReady p d i)).map (s.itemRank p))).map causeOf

/-- The items checked in the cycle with issue count x: due at x + 8, or come into existence there with an earlier due count (02 R34). -/
def State.dueItems (s : State) (p : PartId) (x : Nat) : List DueItem :=
  (s.coresOf p).flatMap (fun c =>
    ((s.core c).str.blocks.filter (fun b => max b.due (b.count + 8) == x + 8)).map (fun b => DueItem.block c b.id)) ++
  (all32.filter (fun n => (s.part p).slots[n].dueAt (x + 8))).map DueItem.slot ++
  (all16.filter (fun id => let r := (s.part p).roots[id]; r.spanWaiting && r.spanDue == x + 8)).map DueItem.span

/-- A hold whose last cause has gone in the present cycle t ends in cycle t + 8 (02 R37). -/
def State.holdEnd (s : State) (p : PartId) (h : Hold) : Hold :=
  if h.ends.isNone && (s.activeCause p h.before h.items).isNone then { h with ends := some ((s.part p).now + 8) } else h

/-- The end of a cycle in a partition, after everything in it: the holds whose last cause has gone end (02 R37), and the check of R34 is made where a bundle issued. -/
def State.holdCheck (s : State) (p : PartId) : State :=
  let q := s.part p
  let n := q.icount.toNat
  if q.haltLimit.isSome then s
  else if n ≤ q.checked then s.modPart p (fun q => { q with holds := q.holds.map (s.holdEnd p) })
  else
    let holds := q.holds.map (s.holdEnd p)
    let late := (s.dueItems p (n - 1)).filter (fun i => !s.itemReady p (n + 7) i)
    let new : List Hold := match s.activeCause p (n + 7) late with
      | some cause => [{ before := n + 7, items := late, begun := false, ends := none, last := cause, run := 0, script := [] }]
      | none => []
    s.modPart p (fun q => { q with holds := holds ++ new, checked := n })

/-- The hold at hand. -/
def Part.hold (q : Part) : Option Hold := q.holds.find? (fun h => h.before == q.icount.toNat)

/-- Items that came into existence in the hold at hand and join its causes (02 R34). -/
def State.joining (s : State) (p : PartId) (h : Hold) : List DueItem :=
  (s.coresOf p).flatMap (fun c =>
    ((s.core c).str.blocks.filter (fun b => b.count == h.before && b.due < h.before + 8)).map (fun b => DueItem.block c b.id)) |>.filter
      (fun i => !h.items.contains i)

/-- The halt hold has come. -/
def Part.haltHeld (q : Part) : Bool := match q.haltLimit with | some n => n ≤ q.icount.toNat | none => false

/-- The hold at hand may be left: its end has come after at least one held cycle, or in replay its recorded cycles are over (02 R37; 12 R304). -/
def State.releasable (s : State) (p : PartId) (h : Hold) : Bool :=
  if s.replaying p then h.begun && h.script.isEmpty
  else h.begun && 1 ≤ h.run && (match h.ends with | some t => t ≤ (s.part p).now | none => false) && (s.joining p h).isEmpty

/-! ## Meanings -/

/-- A hold replaced in its partition. -/
def State.setHold (s : State) (p : PartId) (h : Hold) : State :=
  s.modPart p (fun q => { q with holds := q.holds.map (fun x => if x.before = h.before then h else x) })

/-- SLUICE_HOLD_START (02 R35, R39): every core holds before the bundle at hand; the halt hold begins with its records (03 R74). -/
def execSluiceHoldStart (p : PartId) (s : State) : Result :=
  let q := s.part p
  if !q.live || q.cycDone then .next s
  else if q.haltHeld then
    if q.haltTold then .next s
    else
      let first := (s.coresOf p).find? (fun c => (s.core c).ctl.halted && (s.core c).halt.first)
      let count := match first with | some c => (s.core c).halt.icount.toNat | none => q.icount.toNat
      let s := s.haltEvents p
      .next (if s.haltsRight p count then s else s.diverge p count)
  else
    match q.hold with
    | none => .next s
    | some h =>
      if h.begun then .next s
      else
        if s.replaying p && h.script.isEmpty then .next (s.diverge p q.icount.toNat)
        else .next (s.setHold p { h with begun := true })

/-- One held cycle counted against a cause (02 R40; 12 R299). -/
def Part.countHeld (q : Part) (cause : HoldCause) : Part :=
  { q with
    total := q.total + 1, cyc := q.cyc + 1, cycDone := true, issued := false
    halt := if cause = .halt then q.halt + 1 else q.halt
    late := if cause = .late then q.late + 1 else q.late
    retry := if cause = .retry then q.retry + 1 else q.retry
    gover := if cause = .gather then q.gover + 1 else q.gover
    fref := if cause = .forced then q.fref + 1 else q.fref
    pend := if cause = .pend then q.pend + 1 else q.pend }

/-- A script after one of its cycles. -/
def scriptNext : List (HoldCause × Nat) → List (HoldCause × Nat)
  | (c, n) :: l => if n ≤ 1 then l else (c, n - 1) :: l
  | [] => []

/-- A held cycle of a hold: joined items, its cause, its end once no cause is left (02 R34, R37, R40). -/
def State.holdCycle (s : State) (p : PartId) (h : Hold) : State :=
  let now := (s.part p).now
  let items := h.items ++ s.joining p h
  let active := s.activeCause p h.before items
  let cause := match h.script with
    | (c, _) :: _ => c
    | [] => active.getD h.last
  let ends := if active.isSome then none else some (h.ends.getD (now + 8))
  let changed := cause != h.last && h.run != 0
  let s := if changed then s.noteHold p h else s
  let others := (s.part p).holds.map (fun x => if x.before ≠ h.before then s.holdEnd p x else x)
  let s := s.modPart p (fun q => { q with holds := others })
  (s.setHold p { h with items := items, ends := ends, last := cause, run := if changed then 1 else h.run + 1,
                        script := scriptNext h.script }).modPart p (fun q => q.countHeld cause)

/-- HELD_CYCLE (02 R40): the total and exactly one cause count. -/
def execHeldCycle (p : PartId) (s : State) : Result :=
  let q := s.part p
  if !q.live || q.cycDone then .next s
  else if q.haltHeld then
    if q.haltTold then .next (s.modPart p (fun q => q.countHeld .halt)) else .next s
  else
    match q.hold with
    | none => .next s
    | some h => if h.begun && !s.releasable p h then .next (s.holdCycle p h) else .next s

/-- A live hold lasts beyond its recorded cycles: its end of 02 R37 has not come (12 R305). -/
def State.outlasts (s : State) (p : PartId) (h : Hold) : Bool :=
  !h.items.isEmpty && (match h.ends with | some t => (s.part p).now < t | none => true)

/-- HOLD_RELEASE (02 R37): the hold is over; the bundle before which it held issues in this cycle. In replay a halt recorded in the hold comes instead, and a hold that outlasts its record diverges (12 R305). -/
def execHoldRelease (p : PartId) (s : State) : Result :=
  let q := s.part p
  if !q.live || q.cycDone || q.haltHeld then .next s
  else
    match q.hold with
    | none => .next s
    | some h =>
      if s.releasable p h then
        if !(s.recordedHalts p true).isEmpty then .next (s.replayHalts p true)
        else if s.replaying p && s.outlasts p h then .next (s.diverge p q.icount.toNat)
        else .next ((s.noteHold p h).modPart p (fun q => { q with holds := q.holds.filter (fun x => x.before != h.before) }))
      else .next s

end Sys2Proof.Machine
end

