-- ==== Sys2Proof/Machine/Due.lean ====
section
/-! DEFINITION. Due.lean: which event of the compute plane comes next in the present oscillator cycle (DESIGN CHOICE, log 2): what precedes the bundles of the cycle, and what follows them. -/

namespace Sys2Proof.Machine

/-- The first of some candidate commands that would change a core's stream engine. -/
def State.firstMove (s : State) (c : CoreId) (l : List (Instr × (State → Result))) : Option Instr :=
  (l.find? (fun x => s.strMoves c (x.2 s))).map Prod.fst

/-- A block's next event before the bundles of the cycle: accesses at their planned cycles, arrivals, releases from staging, indices. -/
def State.blockPre (s : State) (c : CoreId) (b : Block) : Option Instr :=
  s.firstMove c [
    (.lineAccess c b.id .clean, execLineAccess c b.id .clean),
    (.lineArrival c b.id, execLineArrival c b.id),
    (.transposeLineRelease c b.id, execTransposeLineRelease c b.id),
    (.quadrantLineRelease c b.id, execQuadrantLineRelease c b.id),
    (.mxsLineRelease c b.id, execMxsLineRelease c b.id),
    (.indexExamine c b.id, execIndexExamine c b.id)]

/-- A block's next event that takes idle slots before the bundles: gather turns, late accesses. -/
def State.blockIdle (s : State) (c : CoreId) (late : Bool) (b : Block) : Option Instr :=
  if late then s.firstMove c [(.lateSourceAccess c b.id .clean, execLateSourceAccess c b.id .clean)]
  else s.firstMove c [(.gatherTurn c b.id ⟨.clean, .clean⟩, execGatherTurn c b.id ⟨.clean, .clean⟩)]

/-- A write of a core's blocks that comes next after the bundles: lines in their cycles, those of indexed blocks, late ones. -/
def State.lineWritePost (s : State) (c : CoreId) : Option Instr :=
  (s.core c).str.blocks.findSome? (fun b => s.firstMove c [(.lineWrite c b.id, execLineWrite c b.id)])
/-- See lineWritePost. -/
def State.indexedWritePost (s : State) (c : CoreId) : Option Instr :=
  (s.core c).str.blocks.findSome? (fun b => s.firstMove c [(.indexedWrite c b.id, execIndexedWrite c b.id)])
/-- See lineWritePost. -/
def State.lateWritePost (s : State) (c : CoreId) : Option Instr :=
  (s.core c).str.blocks.findSome? (fun b => s.firstMove c [(.lateLineWrite c b.id, execLateLineWrite c b.id)])

/-- Index lines: a block's planned reads, or a lagging one's. -/
def State.indexPre (s : State) (c : CoreId) (b : Block) (lag : Bool) : Option Instr :=
  if b.indexed && b.lag == lag then s.firstMove c [(.indexLineRead c b.id .clean, execIndexLineRead c b.id .clean)] else none

/-- The descriptor read of a chain slot that is due, planned or late. -/
def State.readDue (s : State) (c : CoreId) (late : Bool) : Option Instr :=
  match s.partOf c with
  | none => none
  | some p => (all16.find? (fun n => match (s.core c).str.chains[n] with
      | some ch => !(s.core c).ctl.halted && ch.reads.any (fun r => r.2.2 == late && s.readReady c p ch r)
      | none => false)).map (fun n => .descriptorLineRead c n .clean)

/-- A barrier event that has reached its cycle at a core. -/
def Part.barrierDue (q : Part) (c : CoreId) : Option Instr :=
  all16.findSome? (fun id =>
    let r := q.roots[id]
    if r.coming.any (fun x => x.1 == c && x.2 ≤ q.now) then some (.barrierRootArrival c id)
    else if r.going.any (fun x => x.1 == c && x.2 ≤ q.now) then some (.barrierCompletionArrival c id)
    else none)

/-- The first of some possible events. -/
def firstOf : List (Option Instr) → Option Instr
  | [] => none
  | some i :: _ => some i
  | none :: l => firstOf l

/-- What has its cycle at a core before the bundles. -/
def State.corePre (s : State) (p : PartId) (c : CoreId) : Option Instr :=
  let q := s.part p
  let k := s.core c
  let n := q.icount.toNat
  firstOf [
    (if q.issuing && k.vec.pend.any (fun x => x.due ≤ n) then some (.vectorResultWrite c []) else none),
    (if q.issuing then (allEngs.find? (fun e => (k.mx[e].chunkDue n).isSome)).map (fun e => .drainChunkPresent c e) else none),
    (q.nextSignal c).map (fun _ => .signalArrival c),
    q.barrierDue c,
    s.readDue c false,
    k.str.blocks.findSome? (s.blockPre c),
    k.str.blocks.findSome? (fun b => s.indexPre c b false)]

/-- What takes idle slots before the bundles, after everything that has its cycle in any core: indexed turns of every core, then late accesses (08 R211, 09 R232). -/
def State.idlePre (s : State) (cs : List CoreId) : Option Instr :=
  firstOf [
    cs.findSome? (fun c => (s.core c).str.blocks.findSome? (s.blockIdle c false)),
    cs.findSome? (fun c => (s.core c).str.blocks.findSome? (s.blockIdle c true)),
    cs.findSome? (fun c => (s.core c).str.blocks.findSome? (fun b => s.indexPre c b true)),
    cs.findSome? (fun c => s.readDue c true)]

/-- What is due in a partition before the bundles of the cycle. -/
def State.preDue (s : State) (p : PartId) : Option Instr :=
  let q := s.part p
  firstOf [
    (s.coresOf p).findSome? (s.corePre p),
    s.idlePre (s.coresOf p),
    (if q.issuing then (all16.find? (fun id => let r := q.roots[id]
      r.spanWaiting && r.spanReady && r.spanDue ≤ q.icount.toNat)).map (fun id => .spanCompletionDue p id) else none)]

/-- What is due at a core after the bundles, but the writes of indexed blocks and late ones. -/
def State.corePost (s : State) (p : PartId) (c : CoreId) : Option Instr :=
  let q := s.part p
  let k := s.core c
  firstOf [
    (if q.cycDone && q.issued then
      (all16.find? (fun n => s.strMoves c (execBlockIssue c n s))).map (fun n => .blockIssue c n) else none),
    (if q.cycDone && q.issued then (allEngs.find? (fun e => match k.mx[e].nextWrite with
      | some d => d ≤ q.count
      | none => false)).map (fun e => .accWrite c e) else none),
    s.lineWritePost c]

/-- What follows once they are done: starts and sends that a free slot, range or staging entry allows. -/
def State.coreLast (s : State) (c : CoreId) : Option Instr :=
  firstOf [
    (all16.find? (fun n => s.strMoves c (execChainLatchStart c n s))).map (fun n => .chainLatchStart c n),
    s.firstMove c [(.blockLagIssue c, execBlockLagIssue c), (.stagingFreeSend c, execStagingFreeSend c)]]

/-- A request of a partition's core that has reached its queue. -/
def State.entryDue (s : State) (p : PartId) : Option Instr :=
  (s.transit.find? (fun t => s.partOf t.core == some p && t.at_ ≤ (s.part p).now)).map (fun t =>
    .hbmQueueEntry (Fin.ofNat 6 (t.pc / 64)) (Fin.ofNat 64 t.pc))

/-- What is due in a partition after its bundles. -/
def State.postDue (s : State) (p : PartId) : Option Instr :=
  let q := s.part p
  firstOf [
    s.entryDue p,
    (s.coresOf p).findSome? (s.corePost p),
    (s.coresOf p).findSome? s.indexedWritePost,
    (s.coresOf p).findSome? s.lateWritePost,
    (s.coresOf p).findSome? s.coreLast,
    (if q.cycDone then (all16.find? (fun id => match q.roots[id].full with
      | some r => r + 1 ≤ q.now
      | none => false)).map (fun id => .barrierCompletionSend p id) else none)]

/-- The next event of a live partition in the present cycle: none once the cycle is over for it. -/
def State.partDue (s : State) (p : PartId) : Option Instr :=
  let q := s.part p
  if !q.live then none
  else if q.cycDone then s.postDue p
  else
    match s.preDue p with
    | some i => some i
    | none =>
      if q.haltHeld then
        if q.haltTold then firstOf [s.postDue p, some (.heldCycle p)] else some (.sluiceHoldStart p)
      else match q.hold with
        | none => some (.bundleIssue p [])
        | some h =>
          if !h.begun then some (.sluiceHoldStart p)
          else if s.releasable p h then some (.holdRelease p)
          else firstOf [s.postDue p, some (.heldCycle p)]

/-- The release cycle of a partition has come (13 R318). -/
def State.releaseDue (s : State) (p : PartId) : Bool :=
  match (s.part p).release with
  | some (n, t) => s.clk.running && n ≤ s.clk.cycle.toNat && t ≤ s.clk.sample.toNat
  | none => false

/-- What a deliberate change of the set point does in the present oscillator cycle (12 R291, R292). -/
def State.clockDue (s : State) : Option Instr :=
  match s.clk.change with
  | none => none
  | some k =>
    let n := s.clk.cycle.toNat
    if !s.clk.running then none
    else if k.started then (if n = k.nextStep then some .freqRampStep else none)
    else if !k.settled then (if n + 1024 = k.n then some (.railSettleCheck true) else none)
    else if n = k.n then some .freqChangeStart else none

/-- Every live partition has done its cycle and nothing is due in it, no release is due, and no step of the oscillator. -/
def State.cycleOver (s : State) : Bool :=
  s.clockDue.isNone && allParts.all (fun p => !s.releaseDue p) && allParts.all (fun p => !(s.part p).live || ((s.part p).cycDone && (s.postDue p).isNone))

end Sys2Proof.Machine
end

