-- ==== Sys2Proof/Machine/Soft.lean ====
section
/-! DEFINITION. Soft.lean: accesses that no schedule places (04 R84): which slots they find idle, the manager die's jobs on the compute die and their ends, session contexts and completions (15 R348-R352), the scrubber (04 R89), and the meanings of SCRUB_READ and SCRUB_WRITEBACK. -/

namespace Sys2Proof.Machine

/-! ## Idle slots (04 R84) -/

/-- Every access that comes before those of R84 has been made in the present cycle: a core's partition has done its cycle and nothing is due in it; of a core in no live partition, always. -/
def State.quiet (s : State) (c : CoreId) : Bool :=
  match s.liveOf c with | some p => (s.part p).cycDone && (s.postDue p).isNone | none => true

/-- A slot of a core's slice that every other access leaves idle in the present cycle. -/
def State.spare (s : State) (c : CoreId) (res : Nat) : Bool :=
  !s.softUsed.contains res && s.quiet c && (match s.liveOf c with | some p => s.idle p res | none => true)

/-- A slot taken by an access of no schedule. -/
def State.takeSpare (s : State) (res : Nat) : State := { s with softUsed := res :: s.softUsed }

/-- Whether a line is read now: in an idle slot, and not in the cycle in which it is written (04 R82). HBM lines take their turn in a queue (08 R208). -/
def State.readFree (s : State) (a : Nat) : Bool :=
  match sliceOwner a with
  | some o => s.spare o (resRead o (bankGroup a)) && !s.wbuf.any (fun e => e.1 == a)
  | none => true

/-- Whether a line is written now. -/
def State.writeFree (s : State) (a : Nat) : Bool :=
  match sliceOwner a with
  | some o => s.spare o (resWrite o (bankGroup a))
  | none => true

/-- The partition whose slices or share hold an address. -/
def State.partAt (s : State) (a : Nat) : Option PartId :=
  match sliceOwner a with
  | some o => s.partOf o
  | none => s.shareOf a

/-- A line read by no schedule: its data, or none, with a record, when it has an uncorrectable word (04 R88). -/
def State.softRead (s : State) (a : Nat) (ecc : EccResult) : Option Line × State :=
  let s := match sliceOwner a with
    | some o => (s.takeSpare (resRead o (bankGroup a))).countEcc a ecc
    | none => (s.lookLine a).countHbm (Fin.ofNat 6 (s.stackAt a)) ecc
  if (s.found a ecc).failed then (none, s.softError a 1) else (some (s.lineNow a), s)

/-- A line written by no schedule: seen from the next cycle on, where cycles pass (04 R82); a WRITE record into a recorded partition (12 R301). -/
def State.softWrite (s : State) (a source core : Nat) (l : Line) : State :=
  let s := match sliceOwner a with
    | some o =>
      let s := s.takeSpare (resWrite o (bankGroup a))
      if (s.liveOf o).isSome || s.clk.running then s.laterLine a l else s.putLine a l
    | none => s.writeNow a l
  match s.partAt a with
  | some p => s.rrWrite p a source core l
  | none => s

/-! ## The message unit's slots (04 R84; 11 R268) -/

/-- Operation j of handler entry n. -/
def CoreConfig.operation (g : CoreConfig) (n j : Nat) : BitVec 48 := (g.hnd.lookup (8 * n + j)).getD 0

/-- A core's handlers may act: its partition is live, the core is not closed and no halt of it awaits the end of the cycle (11 R267, R271). -/
def State.handles (s : State) (c : CoreId) : Option PartId :=
  match s.liveOf c with
  | some p => if !s.closed c && !s.inReplay c && !(s.part p).halting.any (fun h => h.core == c) then some p else none
  | none => none

/-- The operation that a running handler comes to; none after operation 7. -/
def Core.handlerOp (k : Core) : Option (Handler × BitVec 48) :=
  match k.mu.handler with
  | some h => if h.op < 8 then some (h, k.cfg.operation h.req.hnd h.op) else none
  | none => none

/-- Line L of an operation: BASE + ARG mod NSLOT of the own slice (11 R268). -/
def handlerLine (c : CoreId) (w : BitVec 48) (arg : Nat) : Nat :=
  sliceBase c + 64 * (fld w 31 13 + arg % max 1 (fld w 12 0))

/-- A slot that the operation a handler of a core has come to wants: MPUT writes its line, MRPLY with SRC 0b10 reads it, MAADD does both. The message unit comes before the windows and the scrubber (04 R84). -/
def State.handlerWants (s : State) (c : CoreId) (res : Nat) : Bool :=
  match s.handles c, (s.core c).handlerOp with
  | some _, some (h, w) =>
    let g := bankGroup (handlerLine c w h.req.arg)
    match opc48 w with
    | 0x24 => res == resWrite c g
    | 0x25 => fld w 39 38 == 2 && !(h.req.nr || h.replied) && res == resRead c g
    | 0x26 => res == resWrite c g || res == resRead c g
    | _ => false
  | _, _ => false

/-- A slot for a line that the message unit wants. -/
def State.handlerWantsLine (s : State) (a : Nat) : Bool :=
  match sliceOwner a with
  | some o => s.handlerWants o (resRead o (bankGroup a)) || s.handlerWants o (resWrite o (bankGroup a))
  | none => false

/-! ## Sessions (15 R348, R349, R352) -/

/-- A session context; closed ones with nothing written are not listed. -/
def State.session (s : State) (n : Nat) : Session := (s.host.sessions.lookup n).getD .reset

/-- A session context changed. -/
def State.modSession (s : State) (n : Nat) (f : Session → Session) : State :=
  let v := f (s.session n)
  { s with host := { s.host with
      sessions := if v = .reset then s.host.sessions.filter (fun e => e.1 != n) else putKey n v s.host.sessions } }

/-- The number of an MSI-X vector of a function. -/
def vectorOf (func : Nat) (vec : Nat) : Nat := if func = 0 then vec else 2048 + 32 * (func - 1) + vec % 32

/-- PF0's vectors 12 to 15 are never raised (15 R348). -/
def raisable (vec : Nat) : Bool := !(12 ≤ vec && vec ≤ 15)

/-- A completion record, then an MSI-X message on the session's vector. -/
def State.complete (s : State) (n type stat lines tag seq : Nat) : State :=
  let x := s.session n
  let at_ := x.cpl.toNat + 16 * (x.cpls % (2 * x.nring.toNat))
  let s := s.emit (.hostWrite at_ (leBytes 1 type ++ leBytes 1 stat ++ leBytes 2 0 ++ leBytes 4 lines ++ leBytes 4 tag ++ leBytes 4 seq))
  let s := s.modSession n (fun x => { x with cpls := x.cpls + 1 })
  let v := vectorOf x.func.toNat x.vec.toNat
  if raisable v then s.raise v else s

/-! ## The manager die's jobs -/

/-- The addresses that a line of a job touches. -/
def SoftLine.addrs : SoftLine → List Nat
  | .read a => [a]
  | .put a _ => [a]
  | .merge a _ _ => [a]
  | .copy a b => [a, b]

/-- An address in a slice of a live partition: lines there are moved as a cycle ends, after the message unit's (04 R84). -/
def State.liveAt (s : State) (a : Nat) : Bool := match sliceOwner a with | some o => (s.liveOf o).isSome | none => false

/-- Whether a line of a job finds its slots idle; atEnd: the cycle ends. -/
def State.softFree (s : State) (atEnd : Bool) (x : SoftLine) : Bool :=
  (atEnd || !x.addrs.any s.liveAt) &&
  (match x with
   | .read a => s.readFree a
   | .put a _ => s.writeFree a
   | .merge a _ _ => s.readFree a && s.writeFree a
   | .copy a b => s.readFree a && s.writeFree b)

/-- A job that met an uncorrectable word; the line is not written. -/
def SoftJob.failed (j : SoftJob) : SoftJob := { j with bad := true }

/-- A line with some of its bytes replaced (15 R346). -/
def mergeLine (old : Line) (at_ : Nat) (bytes : List Byte) : Line :=
  let l := lineBytes old
  bytesLine (l.take at_ ++ bytes ++ l.drop (at_ + bytes.length))

/-- One line of a job. -/
def State.softOne (s : State) (j : SoftJob) : SoftLine → State × SoftJob
  | .read a => match s.softRead a (errAt j.errs a) with
    | (some l, s) => (s, { j with got := j.got ++ [(a, l)] })
    | (none, s) => (s, j.failed)
  | .put a l => (s.softWrite a j.source j.core l, j)
  | .merge a at_ bytes => match s.softRead a (errAt j.errs a) with
    | (some l, s) => (s.softWrite a j.source j.core (mergeLine l at_ bytes), j)
    | (none, s) => (s, j.failed)
  | .copy a b => match s.softRead a (errAt j.errs a) with
    | (some l, s) => (s.softWrite b j.source j.core l, j)
    | (none, s) => (s, j.failed)

/-- The lines of a job that are admitted and find idle slots, in order. A service's job ends with its first failing line. -/
def State.runSoft (s : State) (atEnd : Bool) (j : SoftJob) : List SoftLine → State × SoftJob
  | [] => (s, { j with todo := [] })
  | x :: xs =>
    if j.owed ≤ xs.length && s.softFree atEnd x then
      let r := s.softOne j x
      match r.2.bad, j.fin with
      | true, .service _ => (r.1, { r.2 with todo := [], owed := 0 })
      | _, _ => r.1.runSoft atEnd r.2 xs
    else (s, { j with todo := x :: xs })

/-- d_k of the occurrence to consume next. -/
def InputSlot.dueCount (sl : InputSlot) : Nat := sl.first + sl.k * sl.spacing

/-- A slot changed. -/
def State.modSlot (s : State) (p : PartId) (i : Fin 32) (f : InputSlot → InputSlot) : State :=
  s.modPart p (fun q => { q with slots := q.slots.set i (f q.slots[i]) })

/-- The name of a doorbell under placement: its session, and its number above. -/
def Doorbell.key (b : Doorbell) : Nat := b.session.val + 4096 * b.seq

/-- Whether the writes of a job may still be made: those of a placement until d_k - 8 (15 R351). -/
def State.jobOpen (s : State) (j : SoftJob) : Bool :=
  match j.fin with
  | .placement p i k =>
    let sl := (s.part p).slots[i]
    (s.part p).live && sl.k = k && sl.placing.isSome && sl.readyFor = k + 1 && (s.part p).count + 8 ≤ sl.dueCount
  | _ => true

/-- An assize command finished: BUSY 0, STAGE and CODE, vector 11 (13 R312, 15 R348). -/
def State.asizeDone (s : State) (stage code : Nat) : State :=
  { s with asz := { s.asz with busy := false, applying := none, reading := none, stage := BitVec.ofNat 4 stage, code := BitVec.ofNat 8 code } }.raise 11

/-- The bundles of a transaction are written: it is armed, and disarmed at once when its partition has halted or stopped meanwhile (13 R322, R323). -/
def State.armDone (s : State) (p : PartId) (a : Armed) : State :=
  let s := s.modPart p (fun q => { q with armed := some a, txnId := a.id, txnResult := 0, txnIcount := 0 })
  (if (s.part p).pstate == .running then s else s.txnOutcome p 3 0).asizeDone 0 0

/-- The FULL header of a placement is written: the doorbell leaves its line, the slot is filled, and the placement's completion follows (15 R351). -/
def State.placed (s : State) (p : PartId) (i : Fin 32) : State :=
  match s.host.bells.find? (fun b : Doorbell => (s.part p).slots[i].placing == some b.key) with
  | none => s
  | some b =>
    let s := { s with host := { s.host with bells := s.host.bells.erase b } }
    let s := s.modSession b.session.val (fun x => { x with placed := x.placed + 1, pend := x.pend - 1 })
    let s := s.modSlot p i (fun x => { x with placing := none, filled := true })
    s.complete b.session.val 1 0 b.lines b.tag.toNat (b.seq % 2 ^ 32)

/-- What a job whose last line has been moved leaves: read data, or Completer Abort (15 R346), for the host; a filled slot; an armed transaction; its lines for the service that waits. -/
def State.endSoft (s : State) (j : SoftJob) : State :=
  match j.fin with
  | .host dev len =>
    let base := dev / 64 * 64
    s.emit (.readData (if j.bad then none else some ((((j.got.map (fun x => lineBytes x.2)).flatten).drop (dev - base)).take len)))
  | .posted => if j.bad then s.emit .advisoryError else s
  | .placement p i _ => s.placed p i
  | .arm p a => s.armDone p a
  | _ => { s with softDone := s.softDone ++ [j] }

/-- A host access. -/
def SoftJob.ofHost (j : SoftJob) : Bool := match j.fin with | .host _ _ => true | .posted => true | _ => false

/-- A job that must wait for an earlier one: host accesses keep their order, and jobs on one line theirs. -/
def SoftJob.follows (j k : SoftJob) : Bool :=
  (j.ofHost && k.ofHost) || j.todo.any (fun x => x.addrs.any (fun a => k.todo.any (fun y => y.addrs.contains a)))

/-- The jobs in order, each as far as it can go; kept: earlier ones not yet done. -/
def State.serveJobs (s : State) (atEnd : Bool) (kept : List SoftJob) : List SoftJob → State
  | [] => { s with soft := kept }
  | j :: js =>
    if kept.any (fun k => j.follows k) then s.serveJobs atEnd (kept ++ [j]) js
    else if !s.jobOpen j then s.serveJobs atEnd kept js
    else
      let r := s.runSoft atEnd j j.todo
      if r.2.todo.isEmpty then (r.1.endSoft r.2).serveJobs atEnd kept js else r.1.serveJobs atEnd (kept ++ [r.2]) js

/-- The jobs go on, within a cycle or as it ends; not while the link to the compute die trains anew (17 R386). -/
def State.serveSoft (s : State) (atEnd : Bool) : State := if s.fab.d2dTraining then s else s.serveJobs atEnd [] s.soft

/-- A new job, all of it admitted. -/
def State.addSoft (s : State) (todo : List SoftLine) (errs : List (Nat × EccResult)) (source core : Nat) (fin : SoftEnd) : State :=
  { s with
    softNext := s.softNext + 1
    soft := s.soft ++ [{ id := s.softNext, todo := todo, owed := 0, got := [], bad := false, errs := errs, source := source, core := core, fin := fin }] }

/-- Whether a job with some end is under way. -/
def State.softBusy (s : State) (fin : SoftEnd) : Bool := s.soft.any (fun j => j.fin == fin)

/-- The finished job with some end. -/
def State.softEnded (s : State) (fin : SoftEnd) : Option SoftJob := s.softDone.find? (fun j => j.fin == fin)

/-- A finished job taken by its waiter. -/
def State.dropDone (s : State) (j : SoftJob) : State := { s with softDone := s.softDone.erase j }

/-! ## The scrubber (04 R89) -/

/-- The weight-class ranges of a core's slice. -/
def Core.weightRanges (k : Core) (c : CoreId) : List (Nat × Nat) :=
  k.cfg.region.toList.filterMap (fun r =>
    if bit r 63 && fld r 62 61 = 1 then some (sliceBase c + fld r 24 16 * 0x10000, fld r 8 0 * 0x10000) else none)

/-- The lowest weight-class line at or above an address. -/
def nextScrub (rs : List (Nat × Nat)) (a : Nat) : Option Nat :=
  rs.foldl (fun b r => if a < r.1 + r.2 then least b (some (max a r.1)) else b) none

/-- The resource that makes the scrubber read one line per cycle. -/
def resScrub (c : CoreId) : Nat := 0xB00000 + c.val

/-- A slot of a core's slice that its handler or the next line of a job of the manager die wants: they come before the scrubber (04 R84). -/
def State.wanted (s : State) (c : CoreId) (res : Nat) : Bool :=
  s.handlerWants c res || s.soft.any (fun j => j.owed < j.todo.length && (match j.todo with
    | x :: _ => x.addrs.any (fun a => match sliceOwner a with
      | some o => resRead o (bankGroup a) == res || resWrite o (bankGroup a) == res
      | none => false)
    | [] => false))

/-- SCRUB_READ (04 R89): the next weight-class line in an idle read slot; a corrected line waits to be written back, an uncorrectable one is marked poisoned with a record of severity 4. While a corrected line waits for its write-back the scrubber reads no other (DESIGN CHOICE, log 71). -/
def execScrubRead (core : CoreId) (ecc : EccResult) (s : State) : Result :=
  let k := s.core core
  let rs := k.weightRanges core
  match (match nextScrub rs k.cfg.scrubAt with | some a => some a | none => nextScrub rs 0) with
  | none => .next s
  | some a =>
    let res := resRead core (bankGroup a)
    if s.spare core res && s.spare core (resScrub core) && !s.wanted core res && k.cfg.scrubBack.isNone then
      let s := ((s.takeSpare res).takeSpare (resScrub core)).countEcc a ecc
      let s := s.modCfg core (fun g => { g with
        scrubAt := a + 64, scrubPasses := if (nextScrub rs (a + 64)).isNone then g.scrubPasses + 1 else g.scrubPasses })
      match s.found a ecc with
      | .clean => .next s
      | .corrected _ => .next (s.modCfg core (fun g => { g with scrubBack := some (a, s.line a) }))
      | .uncorrectable _ _ =>
        .next ((s.modCfg core (fun g => { g with poison := if g.poison.contains a then g.poison else g.poison ++ [a] })).softError a 0)
    else .next s

/-- SCRUB_WRITEBACK (04 R89): the corrected line is written in the next idle write slot of its bank group. -/
def execScrubWriteback (core : CoreId) (s : State) : Result :=
  match (s.core core).cfg.scrubBack with
  | some (a, l) =>
    let res := resWrite core (bankGroup a)
    if s.spare core res && !s.wanted core res && !s.wbuf.any (fun e => e.1 == a) then
      .next (((s.takeSpare res).modCfg core (fun g => { g with scrubBack := none })).putLine a l)
    else .next s
  | none => .next s

end Sys2Proof.Machine
end

