-- ==== Sys2Proof/Machine/Bundle.lean ====
section
/-! DEFINITION. Bundle.lean: the issue of one bundle by every core of a partition (02 R28, 03 R53-R73), the end of an oscillator cycle, the end of a task (03 R69), and the meaning of BUNDLE_ISSUE. -/

namespace Sys2Proof.Machine

/-! ## One core -/

/-- The slots of a bundle with the causes they raise, each later slot seeing the resources that the earlier ones claim, whatever other causes these have (03 R56, R73); an opcode that is not defined, or not in the core's port mode, claims nothing. -/
def State.laterCauses (s : State) (c : CoreId) (p : PartId) :
    List ((State → List Cause) × (State → State)) → List Cause
  | [] => []
  | x :: l =>
    let cs := x.1 s
    cs ++ ((if cs.any (fun x => x.reason = 0x01 || x.reason = 0x12) then s
      else s.modPart p (fun q => { q with resv := ((x.2 s).part p).resv })).laterCauses c p l)

/-- Every cause that a bundle's slots raise, in slot order. -/
def State.bundleCauses (s : State) (c : CoreId) (p : PartId) (b : Bundle) : List Cause :=
  let k := s.core c
  ctlCauses k.ctl k.syn b.ctl ++ s.synCauses c b.syn ++
  (match s.synEval c b.syn, ctlFlag b.ctl with
   | .done (some _), some k => if k = synKd (b.syn.extractLsb' 0 40) then [Cause.conflict 1 2 k.val] else []
   | _, _ => []) ++
  s.laterCauses c p ([
    ((fun s : State => s.strCauses c b.str), (fun s : State => s.strOp c b.str)),
    ((fun s : State => s.vecCauses c b.vec), (fun s : State => s.vecOp c b.vec))] ++
    allEngs.map (fun e => ((fun s : State => s.mxCauses c e b.m[e]), (fun s : State => s.mxOp c e b.m[e]))))

/-- Every slot of a bundle takes effect (03 R55, 10 R246). -/
def State.applyBundle (s : State) (c : CoreId) (b : Bundle) (flag : Option Bool) : State :=
  let old := (s.core c).ctl
  let s := allEngs.foldl (fun s e => s.mxOp c e b.m[e]) s
  let s := (s.vecOp c b.vec).strOp c b.str
  let s := s.synDone c b.syn flag
  let s := s.modCtl c (fun u => controlAfter old u b.ctl (flag.map (fun f => (synKd (b.syn.extractLsb' 0 40), f))))
  let s := if (s.core c).cfg.oldCode.isSome then s.modCfg c (fun g => { g with oldCode := none }) else s
  if opc48 b.ctl = 0x02 then s.finishCore c else s

/-- The bundle at hand of a core: it halts, waits, or takes effect. fetch: the conflict of its own fetch, which ranks with the other conflicts and before every slot (03 R73). A waiting bundle's checks are made at each of its issues; HALT alone waits for the wait to complete (DEDUCED, log 90). -/
def State.issueSlots (s : State) (c : CoreId) (p : PartId) (fetch : List Cause) (b : Bundle) : State :=
  match s.synEval c b.syn with
  | .waits =>
    match firstCause (fetch ++ (s.bundleCauses c p b).filter (fun x => x.rank != 6)) with
    | some x => s.haltAt c x
    | none => s.synWaits c b.syn
  | .done flag =>
    match firstCause (fetch ++ s.bundleCauses c p b) with
    | some x => s.haltAt c x
    | none => s.applyBundle c b flag

/-- A core fetches and issues its bundle (03 R58, R59): an uncorrectable word in the fetched line halts it in flight, ahead of what its slots raise (R73). -/
def State.fetchIssue (s : State) (c : CoreId) (p : PartId) (errs : List (Nat × EccResult)) : State :=
  let u := (s.core c).ctl
  let a := u.pc.toNat
  if u.skipping then s.modCtl c (fun u => controlAfter u u 0 none)
  else if !s.inCode c a then s.haltAt c ⟨0, 0, 0x0E, a⟩
  else
    let res := resRead c (bankGroup a)
    let q := s.part p
    let fetch := if q.resv.any (fun r => r.cyc == q.count && r.res == res && r.core == c) then [Cause.conflict 0 5 (bankGroup a)] else []
    let found := s.found a (errAt errs a)
    let s := (s.countEcc a (errAt errs a)).take p res
    if found.failed then s.haltCore c true 0 0x0C u.pc a
    else s.issueSlots c p fetch (Bundle.ofLine (s.line a))

/-- Accesses that other cores planned for the cycle and bank group of a fetch which nothing settled when they were planned: the core that issued them halts, with the address of the bundle that did (04 R81; DEDUCED, log 14). -/
def State.fetchClashes (s : State) (p : PartId) : State :=
  let q := s.part p
  (s.coresOf p).foldl (fun s c =>
    let u := (s.core c).ctl
    if u.halted || u.finished || u.skipping || !s.inCode c u.pc.toNat then s
    else
      let bg := bankGroup u.pc.toNat
      (q.resv.filter (fun r => r.cyc == q.count && r.res == resRead c bg && r.core != c && s.partOf r.core == some p)).foldl (fun s r =>
        s.haltCore r.core false r.slot 0x10 r.bundle (5 + 256 * bg) true) s) s

/-- One core in one issue cycle: its engines, then its bundle unless it has halted or finished. -/
def State.issueCore (s : State) (p : PartId) (errs : List (Nat × EccResult)) (c : CoreId) : State :=
  let s := s.matrixCycle c errs (s.part p).icount.toNat
  let u := (s.core c).ctl
  if u.halted || u.finished then s else (s.take p (resFetch c)).fetchIssue c p errs

/-! ## The partition -/

/-- Input slots whose occurrence is consumed at the bundle at hand (15 R351). -/
def InputSlot.consume (sl : InputSlot) (n : Nat) : InputSlot :=
  if sl.valid && n = sl.first + sl.k * sl.spacing then { sl with k := sl.k + 1, filled := false, placing := Option.none } else sl

/-- The partition's registers after a bundle. -/
def Part.issuedOne (q : Part) : Part :=
  { q with
    slots := q.slots.map (fun sl => sl.consume q.icount.toNat), icount := q.icount + 1, cyc := q.cyc + 1, cycDone := true, issued := true }

/-- Chunks no bundle took are lost (05 R137). -/
def State.dropChunks (s : State) (p : PartId) : State :=
  (s.coresOf p).foldl (fun s c => allEngs.foldl (fun s e => s.modMx c e (fun m => { m with present := none })) s) s

/-- Every core of a running partition has finished (03 R69). -/
def State.allFinished (s : State) (p : PartId) : Bool :=
  (s.part p).pstate == .running && (s.coresOf p).all (fun c => (s.core c).ctl.finished)

/-- In replay, a wait that waits otherwise than the next OUTCOME record names (12 R305). -/
def State.offRecord (s : State) (p : PartId) : Bool :=
  let n := (s.part p).icount.toNat
  let left := s.rr.region.filter (fun r => recType r == 4 && n < recPos r)
  s.replaying p &&
  (s.coresOf p).any (fun c => let u := (s.core c).ctl
      u.waiting && replayed (opc48 u.wait) (u.wait.extractLsb' 0 40) &&
      (match left.find? (fun r => recCore r == c) with
       | some r => (byteAt r 16).toNat != opc48 u.wait
       | none => true))

/-- Whether the OUTCOME records of a position all belong to waits that completed there. -/
def State.outcomesMet (before s : State) (p : PartId) : Bool :=
  let n := (before.part p).icount.toNat
  !before.replaying p ||
  (before.rr.region.filter (fun r => recType r == 4 && recPos r == n + 1)).all (fun r =>
    let c := recCore r
    let a := (before.core c).ctl.pc.toNat
    opc48 (Bundle.ofLine (before.line a)).syn == (byteAt r 16).toNat && !(s.core c).ctl.waiting)

/-- Every core of a partition issues one bundle (02 R28), in ascending id: where the bundles of two cores complete a conflict together, the core with the higher id halts (03 R56; DESIGN CHOICE, log 94). In replay none issues past the recorded end (12 R305). -/
def State.issueBundle (s : State) (p : PartId) (errs : List (Nat × EccResult)) : State :=
  if s.pastEnd p then s.diverge p (s.part p).icount.toNat else
  let s := (s.applyRecords p).fetchClashes p
  let t := (s.coresOf p).foldl (fun s c => s.issueCore p errs c) s
  let t := (t.dropChunks p).modPart p Part.issuedOne
  let t := if t.allFinished p then t.modPart p (fun q => { q with taskEnd := true, endErrs := errs }) else t
  if t.replaying p && (t.part p).pstate == .running && (t.offRecord p || !State.outcomesMet s t p) then
    t.diverge p (s.part p).icount.toNat
  else t.takeScript p

/-! ## The end of a task (03 R69) -/

/-- One cycle of a partition's pipelines without issue: vector results, drain chunks, operand reads, accumulator writes. errs: what the error checks find of its reads. -/
def State.pipeCycle (s : State) (p : PartId) (errs : List (Nat × EccResult)) (x : Nat) : State :=
  let s := (s.coresOf p).foldl (fun s c =>
    let due := (s.core c).vec.pend.filter (fun r => r.due ≤ x)
    let s := s.modVec c (fun v => { v with pend := v.pend.filter (fun r => x < r.due) })
    let s := due.foldl (fun s r => s.landVector c r errs) s
    let s := s.matrixCycle c errs x
    allEngs.foldl (fun s e => s.modMx c e (fun m =>
      let m := { m with drains := m.drains.filter (fun d => x < d.d + 132) }
      match m.nextWrite with
      | some d => if d ≤ x then m.writeNext (s.core c).cfg e else m
      | none => m)) s) s
  s.commit

/-- Nothing is left in a partition's pipelines. -/
def State.pipesEmpty (s : State) (p : PartId) : Bool :=
  (s.coresOf p).all (fun c => (s.core c).vec.pend.isEmpty &&
    (s.core c).mx.toList.all (fun m => m.ops.isEmpty && m.drains.isEmpty && m.mrql.isEmpty))

/-- The results already in the pipelines complete. -/
def State.drainPipes (s : State) (p : PartId) (errs : List (Nat × EccResult)) (x : Nat) : Nat → State
  | 0 => s
  | fuel + 1 => if s.pipesEmpty p || (s.part p).pstate != .running then s else (s.pipeCycle p errs x).drainPipes p errs (x + 1) fuel

/-- The task ends in the cycle after its last core finished: pipelines complete, the manager stops the partition and reports (15 R348). A read of them that fails halts its finished core and the partition (03 R69): it is then in its halt hold, and its task has not ended. -/
def State.endTask (s : State) (p : PartId) : State :=
  let n := (s.part p).icount.toNat
  let right := s.endsRight p n
  let s := (s.modPart p (fun q => { q with taskEnd := false })).drainPipes p (s.part p).endErrs n 262144
  if (s.part p).pstate == .halted then s
  else if right then (s.stopPart p).raise p.val else s.diverge p n

/-! ## The end of an oscillator cycle -/

/-- The cores of a partition that finished in the cycle that ends become closed (11 R271). -/
def State.closeFinished (s : State) (p : PartId) : State :=
  (s.coresOf p).foldl (fun s c =>
    let u := (s.core c).ctl
    if u.finished && !u.halted && u.finCyc = (s.part p).now then s.closeCore c else s) s

/-- A partition's part in the end of a cycle: claims that have passed go, those that run on in a hold come nearer. -/
def Part.endCycle (q : Part) : Part :=
  let q := if q.live && q.cycDone && !q.issued then q.holdResv else q.keepResv
  { q with cycDone := false, issued := false, used := [] }

/-- The cycle is over: accesses of no schedule take the slots left idle, the hold checks are made, its writes are visible, the count of cycles advances and the time base is sampled for the next, halts found after its bundles take effect, tasks whose last core finished end (02 R34; 03 R71; 04 R82, R84; 12 R288, R297). -/
def State.endCycle (s : State) : State :=
  let s := s.serveSoft true
  let s := allParts.foldl (fun s p => if (s.part p).live then (s.holdCheck p).closeFinished p else s) s
  let s := s.commit
  let s := { s with clk := { s.clk with cycle := s.clk.cycle + 1, sample := s.clk.tb }, softUsed := [] }
  let s := { s with parts := s.parts.map Part.endCycle }
  let s := allParts.foldl (fun s p => s.haltsFound p) s
  allParts.foldl (fun s p => if (s.part p).taskEnd then s.endTask p else s) s

/-- BUNDLE_ISSUE (02 R28): every core of a partition that is not held issues its bundle, in the next cycle if the present one is over. -/
def execBundleIssue (p : PartId) (errs : List (Nat × EccResult)) (s : State) : Result :=
  let t := if (s.part p).cycDone && s.cycleOver && s.clk.running then s.endCycle else s
  let q := t.part p
  if q.live && !q.cycDone && !q.mustHold && (t.preDue p).isNone then .next (t.issueBundle p errs) else .next s

end Sys2Proof.Machine
end

