-- ==== Sys2Proof/Machine/Weir.lean ====
section
/-! DEFINITION. Weir.lean: admission by the weir (13 R324-R326), a unit for each message and each line (15 R347). -/

namespace Sys2Proof.Machine

/-- A weir activity. -/
def State.act (s : State) (n : Nat) : Activity := (s.asz.acts.lookup n).getD .reset

/-- A weir activity changed; activities at their reset state are not listed. -/
def State.modAct (s : State) (n : Nat) (f : Activity → Activity) : State :=
  let v := f (s.act n)
  { s with asz := { s.asz with
      acts := if v = .reset then s.asz.acts.filter (fun e => e.1 != n) else putKey n v s.asz.acts } }

/-- What the weir answers. -/
inductive Admission where
  | refused
  | admitted
  | waits
  deriving DecidableEq, Repr

/-- An activity whose every transfer is refused (13 R324). -/
def State.refuses (s : State) (n : Nat) : Bool := (s.act n).budget == 0

/-- Units of an activity that its credit admits now; an unmetered one admits all. -/
def State.creditFor (s : State) (n units : Nat) : Nat :=
  let a := s.act n
  if a.budget = 0xFFFFF then units else min units a.credit

/-- Credit taken. -/
def State.spend (s : State) (n units : Nat) : State :=
  s.modAct n (fun a => if a.budget = 0xFFFFF then a else { a with credit := a.credit - units })

/-- Something of an activity waits: what comes later waits behind it. -/
def State.queued (s : State) (n : Nat) : Bool := s.asz.waiting.any (fun e => e.1 == n)

/-- A new transfer of one unit: refused at BUDGET 0, admitted with its credit taken, or waiting for a later period. -/
def State.meter (s : State) (n : Nat) (t : Transfer) : Admission × State :=
  if s.refuses n then (.refused, s)
  else if !s.queued n && s.creditFor n 1 = 1 then (.admitted, s.spend n 1)
  else (.waits, { s with asz := { s.asz with waiting := s.asz.waiting ++ [(n, t)] } })

/-- The first received slot of a port meets the weir, once more if it waits there already: a period that has admitted it says so. -/
def State.meterSlot (s : State) (n : Nat) (port : PortId) : Admission × State :=
  if s.asz.passed.contains port then (.admitted, { s with asz := { s.asz with passed := s.asz.passed.erase port } })
  else if s.asz.waiting.any (fun e => e.2 == .inbound port) then (.waits, s)
  else s.meter n (.inbound port)

/-- A job of the manager die whose lines an activity meters, one unit a line: those its credit does not admit wait (13 R326). -/
def State.startSoft (s : State) (act : Option Nat) (todo : List SoftLine) (errs : List (Nat × EccResult)) (source core : Nat) (fin : SoftEnd) : State :=
  match act with
  | none => (s.addSoft todo errs source core fin).serveSoft false
  | some n =>
    let k := if s.queued n then 0 else s.creditFor n todo.length
    let id := s.softNext
    let s := (s.spend n k).addSoft todo errs source core fin
    let s := { s with
      soft := s.soft.map (fun j : SoftJob => if j.id = id then { j with owed := todo.length - k } else j)
      asz := { s.asz with waiting := if k < todo.length then s.asz.waiting ++ [(n, Transfer.lines id)] else s.asz.waiting } }
    s.serveSoft false

/-- Units that a waiting transfer still asks for. -/
def State.owedUnits (s : State) (t : Transfer) : Nat :=
  match t with
  | .lines id => (s.soft.find? (fun j => j.id == id)).elim 0 (fun j => j.owed)
  | .fetch p i => (s.part p).slots[i].fetchOwed
  | _ => 1

/-- The activity of what leaves a partition for the manager die or the fabric (15 R347). -/
def leaving (p : PartId) : Nat := 248 + p.val
/-- The activity of what enters a partition from the fabric. -/
def entering (p : PartId) : Nat := 240 + p.val

/-- Bytes of a slice. -/
def sliceBytes : Nat := 0x1C00000

/-- A partition's slices and HBM share (01 R22, 08 R207). -/
def State.ownSpans (s : State) (p : PartId) : List (Nat × Nat) :=
  (s.coresOf p).map (fun c => (sliceBase c, sliceBytes)) ++ [s.hbmWindow p]

/-- Addresses of n lines from an address. -/
def linesFrom (a n : Nat) : List Nat := (List.range n).map (fun i => a + 64 * i)

/-- The lines of a finished job in the order of their addresses. -/
def SoftJob.lines (j : SoftJob) : List Line := j.got.map Prod.snd

end Sys2Proof.Machine
end

