-- ==== Sys2Proof/Machine/Message.lean ====
section
/-! DEFINITION. Message.lean: messages on their way, the message unit's handlers, and the manager die's services (11 R262, R266-R277; 15 R353; 09 R238), and the meanings of their commands. -/

namespace Sys2Proof.Machine

/-! ## Entry into queues (11 R262, R271) -/

/-- Messages of one sender and receiver, channel and class keep their order (11 R272): whether an earlier one is still on its way. -/
def State.behind (s : State) (n : Nat) (m : Msg) : Bool :=
  (s.net.take n).any (fun x => x.smod == m.smod && x.sep == m.sep && x.dmod == m.dmod && x.dep == m.dep && x.cls == m.cls &&
    (x.kind == 1) == (m.kind == 1))

/-- A message leaves the network. -/
def State.takeMsg (s : State) (n : Nat) : State := { s with net := s.net.eraseIdx n }

/-- The partition that a message of this die leaves. -/
def State.sourcePart (s : State) (m : Msg) : Option PartId :=
  if s.fromDie m then (epCore m.sep).bind s.partOf else none

/-- A message of this die meets the weir on its way to the manager die. -/
def State.meterOut (s : State) (m : Msg) : Admission × State :=
  match s.sourcePart m with
  | some p => s.meter (leaving p) (.message m)
  | none => (.admitted, s)

/-- A request that has reached the manager die waits for its service or its port. -/
def State.toService (s : State) (m : Msg) : State := { s with services := s.services ++ [{ req := m, accepted := false, left := 0, off := 0, sent := false }] }

/-- A request enters a core's queue: another module's leaves its entry at the manager die (11 R262). -/
def State.enterCore (s : State) (c : CoreId) (m : Msg) : State :=
  if s.fromDie m then s.enterQueue c m
  else { s with mgrFromFab := s.mgrFromFab.set m.cls (s.mgrFromFab[m.cls] - 1) }.modMu c (fun u => { u with rq := u.rq ++ [m] })

/-- Whether a message crosses the die-to-die link: all but those between two cores of this die. -/
def State.crosses (s : State) (m : Msg) : Bool :=
  !s.fromDie m || m.dmod ≠ s.fab.cfg.modid.toNat || (epCore m.dep).isNone || (epCore m.sep).isNone

/-- What crosses the die-to-die link waits while the link trains anew (17 R386). -/
def State.carries (s : State) (m : Msg) : Bool := !(s.fab.d2dTraining && s.crosses m)

/-- Whether a request could reach its receiver's queue now, or be turned away there. -/
def State.enters (s : State) (m : Msg) : Bool :=
  s.carries m && (match s.ownCore m.dmod m.dep with
    | some c => s.fromDie m || s.closed c || s.inReplay c || (s.core c).mu.reqFree m.cls.val || s.fab.cfg.flow ≠ 0
    | none => true)

/-- Routers and queue selection serve class 0 before every other class (11 R281): a request waits for class-0 requests to its receiver, an answer for class-0 answers. -/
def State.yields (s : State) (m : Msg) : Bool :=
  m.cls ≠ 0 && s.net.any (fun x => (x.kind = 1) == (m.kind = 1) && x.cls = 0 && x.dmod = m.dmod && x.dep = m.dep &&
    (if m.kind = 1 then s.enters x else s.carries x))

/-- A request turned away at its receiver with a NAK. -/
def State.turnAway (s : State) (m : Msg) (stat : Nat) : State :=
  (if s.fromDie m then s.releaseReq m else s.freeEntry m).sendMsg (m.nak stat)

/-- REQUEST_ENQUEUE (11 R262, R271, R273, R275, R281): a request reaches its receiver: a core's queue, a closed core, or the manager die past the weir. -/
def execRequestEnqueue (n : Nat) (s : State) : Result :=
  match s.net[n]? with
  | none => .next s
  | some m =>
    if m.kind ≠ 1 || s.behind n m || s.yields m || !s.enters m then .next s
    else
      match s.ownCore m.dmod m.dep with
      | some c =>
        if s.closed c || s.inReplay c then .next (((s.takeMsg n).turnAway m 1).countClosed m)
        else if s.fromDie m || (s.core c).mu.reqFree m.cls.val then .next ((s.takeMsg n).enterCore c m)
        else .next ((s.takeMsg n).turnAway m 2)
      | none =>
        match s.meterOut m with
        | (.admitted, s) => .next ((s.takeMsg n).toService m)
        | (.waits, s) => .next (s.takeMsg n)
        | (.refused, s) => .next ((s.takeMsg n).turnAway m 6)

/-- An answer reaches its requester: its reserved reply entry, or nowhere if the requester has closed since (11 R262, R271). -/
def State.enterReply (s : State) (m : Msg) : State :=
  match epCore m.dep with
  | some c =>
    if s.closed c || (s.core c).mu.gen ≠ m.gen then s
    else s.modMu c (fun u => { u with rp := u.rp ++ [m], rpHeld := u.rpHeld - 1 })
  | none => s

/-- An answer leaves for another module. -/
def State.replyOut (s : State) (m : Msg) : State := s.sendSlot m.dmod (msgSlot m)

/-- REPLY_ENQUEUE (11 R262, R271): a reply or NAK enters its reserved entry, is discarded at a closed core, or leaves for its module. -/
def execReplyEnqueue (n : Nat) (s : State) : Result :=
  match s.net[n]? with
  | none => .next s
  | some m =>
    if m.kind = 1 || s.behind n m || s.yields m || !s.carries m then .next s
    else if m.dmod = s.fab.cfg.modid.toNat then .next ((s.takeMsg n).enterReply m)
    else
      match s.meterOut m with
      | (.admitted, s) => .next ((s.takeMsg n).replyOut m)
      | (.waits, s) => .next (s.takeMsg n)
      | (.refused, s) => .next ((s.takeMsg n).replyOut { m with hdr := mkHdr 3 false m.cls.val m.dmod m.dep m.smod m.sep 6 m.arg, payload := 0 })

/-! ## Handlers (11 R266-R270) -/

/-- The request that a dispatch takes: the oldest of class 0, or else the oldest (11 R267). -/
def MessageUnit.nextRequest (u : MessageUnit) : Option Msg :=
  match u.rq.find? (fun m => m.cls == 0) with
  | some m => some m
  | none => u.rq.head?

/-- A halt that a handler raises (11 R269), with its HALT record (12 R301): its bundle is the one at issue in the halting cycle. -/
def State.handlerHalt (s : State) (c : CoreId) (reason detail : Nat) : State :=
  s.haltCore c (reason = 0x07 || reason = 0x13) 1 reason (s.core c).ctl.pc detail (handler := true)

/-- HANDLER_DISPATCH (11 R267): the oldest eligible request's handler starts; an empty entry halts the core in flight with reason 0x13. -/
def execHandlerDispatch (core : CoreId) (s : State) : Result :=
  match s.handles core with
  | none => .next s
  | some _ =>
    let k := s.core core
    match k.mu.handler, k.mu.nextRequest with
    | none, some m =>
      if opc48 (k.cfg.operation m.hnd 0) = 0 then .next (s.handlerHalt core 0x13 m.hnd)
      else .next (s.modMu core (fun u => { u with rq := u.rq.erase m, handler := some { req := m, op := 0, replied := false } }))
    | _, _ => .next s

/-- The next operation of the handler. -/
def State.nextOp (s : State) (c : CoreId) : State :=
  s.modMu c (fun u => { u with handler := u.handler.map (fun h => { h with op := h.op + 1 }) })

/-- The checks of NSLOT and of line L in the order of 11 R269; used: the operation reaches line L, which MRPLY does only with SRC 0b10 (DEDUCED, log 59). -/
def State.lineBad (s : State) (c : CoreId) (w : BitVec 48) (arg : Nat) (used : Bool := true) : Option (Nat × Nat) :=
  let a := handlerLine c w arg
  if fld w 12 0 = 0 then some (0x0D, 416)
  else if used && (!insideOne ((s.core c).regions c) a 64 || ((s.core c).codeSpans c (opc48 w != 0x25)).any (fun r => meets a 64 r.1 r.2)) then some (0x05, a)
  else none

/-- The checks of a handler operation but those of capacity (11 R269). -/
def State.operationBad (s : State) (c : CoreId) (h : Handler) (w : BitVec 48) : Option (Nat × Nat) :=
  let lw := w.extractLsb' 0 40
  match handlerMask (opc48 w) with
  | none => some (0x01, opc48 w)
  | some mask =>
    let bad := lw &&& ~~~mask
    if opc48 w = 0x20 then some (0x0B, h.req.hnd)
    else if bad ≠ 0 then some (0x02, 416 + lowestBit bad)
    else match opc48 w with
      | 0x01 =>
        if 48 ≤ synN lw then some (0x02, 448)
        else if synAmt lw = 0 then some (0x0D, 440)
        else if synTgt w ≠ c then some (0x05, blockBase (synTgt w))
        else none
      | 0x24 => s.lineBad c w h.req.arg
      | 0x25 => if fld w 39 38 = 3 then some (0x02, 454) else s.lineBad c w h.req.arg (fld w 39 38 == 2)
      | 0x26 => if 1 < fld w 39 38 then some (0x02, 454) else s.lineBad c w h.req.arg
      | _ => none

/-- One operation of a running handler, if it has the opcode: its checks, then its effect, then the next operation. -/
def handlerStep (c : CoreId) (opc : Nat) (effect : PartId → Handler → BitVec 48 → State → State) (s : State) : Result :=
  match s.handles c, (s.core c).handlerOp with
  | some p, some (h, w) =>
    if opc48 w = opc then
      match s.operationBad c h w with
      | some (reason, detail) => .next (s.handlerHalt c reason detail)
      | none => .next (effect p h w s)
    else .next s
  | _, _ => .next s

/-- HANDLER_SIGNAL (11 R268, 10 R242 step 2): the own counter rises by AMT, after the remote signals of the cycle; past the capacity the core halts in flight (R243). -/
def execHandlerSignal (core : CoreId) (s : State) : Result :=
  handlerStep core 0x01 (fun p _ w s =>
    let n := synN (w.extractLsb' 0 40)
    let amt := synAmt (w.extractLsb' 0 40)
    if ((s.part p).nextSignal core).isSome || (s.part p).cycDone then s
    else
      let t := s.applySignal p core n amt (fun s => s.handlerHalt core 0x07 n)
      if (t.handles core).isNone then t
      else (t.rrNote p 3 core.val (leBytes 8 (n + 256 * amt))).nextOp core) s

/-- MPUT (11 R268): the request's payload is written to line L in an idle write slot. -/
def execMput (core : CoreId) (s : State) : Result :=
  handlerStep core 0x24 (fun _ h w s =>
    let a := handlerLine core w h.req.arg
    if s.writeFree a then (s.softWrite a 1 core.val h.req.payload).nextOp core else s) s

/-- The reply of a handler: its reply is sent once. -/
def State.replyFrom (s : State) (c : CoreId) (h : Handler) (m : Msg) : State :=
  if h.req.nr || h.replied then s.modMu c (fun u => { u with extra := satAdd u.extra 1 })
  else (s.sendMsg m).modMu c (fun u => { u with handler := u.handler.map (fun h => { h with replied := true }) })

/-- A handler operation that met an uncorrectable line ends with an error completion: NAK BADREQ to a requester that still awaits its answer (04 R88; the reason DESIGN CHOICE, log 26). -/
def State.failedRead (s : State) (c : CoreId) (h : Handler) : State :=
  (if h.req.nr || h.replied then s else s.replyFrom c h (h.req.nak 6)).nextOp c

/-- MRPLY (11 R268, R270): the request's reply with STAT and the payload that SRC selects; line L is read in an idle slot, and answers with NAK BADREQ if it is uncorrectable (DESIGN CHOICE, log 26). -/
def execMrply (core : CoreId) (ecc : EccResult) (s : State) : Result :=
  handlerStep core 0x25 (fun _ h w s =>
    let stat := fld w 37 32
    if fld w 39 38 = 2 && !(h.req.nr || h.replied) then
      let a := handlerLine core w h.req.arg
      if s.readFree a then
        match s.softRead a ecc with
        | (some l, s) => (s.replyFrom core h (h.req.answer 2 stat l)).nextOp core
        | (none, s) => s.failedRead core h
      else s
    else (s.replyFrom core h (h.req.answer 2 stat (if fld w 39 38 = 1 then h.req.payload else 0))).nextOp core) s

/-- MAADD (11 R268, R280): the payload is added to line L as 16 words, I32 or FP32, in a cycle with an idle read and write slot of its bank group. An uncorrectable line is left as it is. -/
def execMaadd (core : CoreId) (ecc : EccResult) (s : State) : Result :=
  handlerStep core 0x26 (fun _ h w s =>
    let a := handlerLine core w h.req.arg
    if s.readFree a && s.writeFree a then
      match s.softRead a ecc with
      | (some l, s) => (s.softWrite a 1 core.val (addLines (if fld w 39 38 = 1 then 1 else 2) l h.req.payload)).nextOp core
      | (none, s) => s.failedRead core h
    else s) s

/-- REQUEST_SEND_FROM_HANDLER (11 R268): MSREQ in a handler halts the core with reason 0x0B. -/
def execRequestSendFromHandler (core : CoreId) (s : State) : Result := handlerStep core 0x20 (fun _ _ _ s => s) s

/-- HANDLER_END (11 R267, R270): at a NOP or after operation 7 the handler ends, its request entry is free, and a request not yet answered gets a reply with STAT 0. -/
def execHandlerEnd (core : CoreId) (s : State) : Result :=
  match s.handles core, (s.core core).mu.handler with
  | some _, some h =>
    if (match (s.core core).handlerOp with | some (_, w) => opc48 w == 0 | none => true) then
      let s := s.modMu core (fun u => { u with handler := none })
      let s := s.returnCredit h.req
      if h.req.nr || h.replied then .next s
      else .next ((s.sendMsg (h.req.answer 2 0 0)).modMu core (fun u => { u with auto := satAdd u.auto 1 }))
    else .next s
  | _, _ => .next s

/-! ## The manager die (11 R273, R274, R277; 15 R353) -/

/-- A request is done at the manager die. -/
def State.endService (s : State) (v : Service) : State :=
  { s.dropSoft (fun f => f == SoftEnd.service v.req) with services := s.services.erase v }.freeEntry v.req

/-- A request rejected. -/
def State.nakService (s : State) (v : Service) (stat : Nat) : State := (s.endService v).sendMsg (v.req.nak stat)

/-- A request that fails after its service accepted it: an NR = 1 one is told nothing (11 R270). -/
def State.failService (s : State) (v : Service) (stat : Nat) : State := if v.req.nr then s.endService v else s.nakService v stat

/-- A service at work. -/
def State.setService (s : State) (v w : Service) : State :=
  { s with services := s.services.map (fun x => if x = v then w else x) }

/-- A service accepts its request: the reply entry of an NR = 1 one is free (11 R262). -/
def State.accept (s : State) (v w : Service) : State := (if v.req.nr then s.freeReply v.req else s).setService v w

/-- A field of a payload, in bytes. -/
def Msg.bytes (m : Msg) (lo n : Nat) : Nat := fld m.payload (8 * (lo + n) - 1) (8 * lo)

/-- Whether an id names a module of the configuration (11 R277). -/
def State.reachable (s : State) (m : Nat) : Bool := s.fab.cfg.role ≠ 0 && m < s.fab.cfg.nmod.toNat

/-- An earlier request of the same sender, receiver and class waits at the manager die (11 R272). -/
def State.serviceBehind (s : State) (n : Nat) (m : Msg) : Bool :=
  (s.services.take n).any (fun v => v.req.smod == m.smod && v.req.sep == m.sep && v.req.dmod == m.dmod && v.req.dep == m.dep && v.req.cls == m.cls)

/-- Whether a request of class 0 waits for a port: it goes before every other class (11 R281). -/
def State.forwardYields (s : State) (m : Msg) (port : PortId) : Bool :=
  m.cls ≠ 0 && s.services.any (fun v => v.req.cls = 0 && v.req.dmod ≠ s.fab.cfg.modid.toNat && s.reachable v.req.dmod &&
    s.toward v.req.dmod == some port)

/-- MANAGER_FORWARD (11 R272, R273, R277, R281): a request for another module goes to a port of the fabric; UNREACH where there is no such module. Its entry is free once it is sent onto the link. -/
def execManagerForward (n : Nat) (port : PortId) (s : State) : Result :=
  match s.services[n]? with
  | none => .next s
  | some v =>
    let m := v.req
    if m.dmod = s.fab.cfg.modid.toNat || s.serviceBehind n m then .next s
    else if !s.reachable m.dmod then .next (s.nakService v 5)
    else if s.toward m.dmod ≠ some port || s.forwardYields m port then .next s
    else
      let s := { s with services := s.services.erase v }.queueSlot port m.dmod (msgSlot m)
      .next ({ s with fab := { s.fab with asked := s.fab.asked ++ [({ req := m, freed := false } : Asked)] } }.modPort port (fun q => { q with
        unacked := q.unacked ++ [m], through := if s.fab.cfg.flow = 0 then q.through ++ [(creditKey m, none)] else q.through }))

/-- The request of a service of this module, if its HND is one of some. -/
def State.serviceAt (s : State) (n : Nat) (f : Nat → Bool) : Option Service :=
  match s.services[n]? with
  | some v => if v.req.dmod = s.fab.cfg.modid.toNat && f v.req.hnd then some v else none
  | none => none

/-- UNDEFINED_SERVICE_REQUEST (11 R273): an HND that names no service receives NAK BADREQ. -/
def execUndefinedServiceRequest (n : Nat) (s : State) : Result :=
  match s.serviceAt n (fun h => h ≠ 1 && h ≠ 0x10 && h ≠ 0x11) with
  | some v => .next (s.nakService v 6)
  | none => .next s

/-- The end of a service that was accepted: a reply with STAT 0, none for an NR request. -/
def State.serviceDone (s : State) (v : Service) : State :=
  let s := s.endService v
  if v.req.nr then s else s.sendMsg (v.req.answer 2 0 0)

/-- Whether SOUT rejects a request (15 R353). -/
def State.soutBad (s : State) (m : Msg) : Bool :=
  let sid := m.bytes 0 2
  let lines := m.bytes 4 4
  let a := m.bytes 8 6
  let x := s.session sid
  4096 ≤ sid || !x.valid || lines = 0 || x.outLn.toNat < lines || a % 64 ≠ 0 ||
  (match s.sourcePart m with | some p => x.part.toNat ≠ p.val || !insideOne (s.ownSpans p) a (64 * lines) | none => true)

/-- The lines of an output are read: it is written to the output ring, a completion follows, then the reply; NAK BADREQ where the session has closed meanwhile or a line was uncorrectable. -/
def State.soutEnd (s : State) (v : Service) : State :=
  match s.softEnded (.service v.req) with
  | none => s
  | some j =>
    let m := v.req
    let sid := m.bytes 0 2
    let x := s.session sid
    let s := s.dropDone j
    if j.bad || !x.valid then s.failService v 6
    else
      let s := s.emit (.hostWrite (x.outRing.toNat + 64 * x.outLn.toNat * (x.outs % x.nring.toNat)) (j.lines.flatMap lineBytes))
      let s := s.complete sid 2 0 (m.bytes 4 4) (m.bytes 16 4) x.outs
      (s.modSession sid (fun x => { x with outs := x.outs + 1 })).serviceDone v

/-- SOUT (15 R353): an output is accepted, or rejected; once the weir has admitted its lines and they are read, it goes to the host. -/
def execSout (n : Nat) (errs : List (Nat × EccResult)) (s : State) : Result :=
  match s.serviceAt n (fun h => h = 1) with
  | none => .next s
  | some v =>
    if v.accepted then .next (s.soutEnd v)
    else
      let m := v.req
      let act := (s.session (m.bytes 0 2)).act.toNat
      if s.soutBad m || s.refuses act then .next (s.nakService v 6)
      else
        let w := { v with accepted := true }
        .next (((s.accept v w).startSoft (some act) ((linesFrom (m.bytes 8 6) (m.bytes 4 4)).map SoftLine.read) errs 2 m.sep (.service m)).soutEnd w)

/-! ## Owner-table moves (09 R238, 11 R274) -/

/-- The registered owner table of a tensor. -/
def State.ownerTable (s : State) (tid : Nat) : Option (List (BitVec 128)) := s.asz.owners.find? (fun t => ownerTid t == tid)

/-- The entry of a table that holds a unit. -/
def ownerEntry (t : List (BitVec 128)) (o : Nat) : Option (BitVec 128) :=
  (t.drop 4).find? (fun e => fld e 39 0 ≤ o && o < fld e 39 0 + fld e 63 40)

/-- Whether the manager die rejects a move: reserved bytes, COUNT 0, LADDR, span (11 R273, R274). -/
def State.moveBad (s : State) (m : Msg) : Bool :=
  let count := m.bytes 16 3
  m.bytes 2 2 ≠ 0 || m.bytes 13 3 ≠ 0 || m.bytes 19 1 ≠ 0 || m.bytes 26 38 ≠ 0 || count = 0 || m.bytes 20 6 % 64 ≠ 0 ||
  (match s.sourcePart m with | some p => !insideOne (s.ownSpans p) (m.bytes 20 6) (64 * count) | none => true)

/-- One part of a move: units, the owner's module and address there, the local address. -/
structure MovePart where
  k : Nat
  mod : Nat
  far : Nat
  near : Nat
  deriving DecidableEq, Repr

/-- The next part of a move; none: the table is stale, or the offset lies at or beyond TOTAL. -/
def State.movePart (s : State) (v : Service) : Option MovePart :=
  let m := v.req
  match s.ownerTable (m.bytes 0 2) with
  | none => none
  | some t =>
    if ownerVer t ≠ m.bytes 4 4 || ownerTotal t ≤ v.off then none
    else (ownerEntry t v.off).map (fun e =>
      { k := min v.left (fld e 39 0 + fld e 63 40 - v.off), mod := fld e 123 112, far := fld e 111 64 + 64 * (v.off - fld e 39 0),
        near := m.bytes 20 6 + 64 * (v.off - m.bytes 8 5) })

/-- A part has moved. -/
def State.moved (s : State) (v : Service) (k : Nat) : State :=
  s.setService v { v with left := v.left - k, off := v.off + k, sent := false }

/-- A move as its service accepts it. -/
def Service.moving (v : Service) : Service := { v with accepted := true, left := v.req.bytes 16 3, off := v.req.bytes 8 5 }

/-- The start of a move: it is accepted, or rejected with BADREQ, or with STALE before any part has moved. -/
def State.startMove (s : State) (v : Service) : State :=
  if s.moveBad v.req then s.nakService v 6
  else if (s.movePart v.moving).isNone then s.nakService v 4
  else s.accept v v.moving

/-- The activity that a part's lines count against, if any (15 R347). -/
def State.moveAct (s : State) (v : Service) (get : Bool) (x : MovePart) : Option Nat :=
  let own := s.sourcePart v.req
  if get then (if x.mod = s.fab.cfg.modid.toNat then (s.partAt x.far).map leaving else own.map entering)
  else own.map leaving

/-- The lines of a part set out: on this die, in idle slots, as far as the weir admits them. -/
def State.startPart (s : State) (v : Service) (get : Bool) (x : MovePart) (todo : List SoftLine) (errs : List (Nat × EccResult)) : State :=
  let act := s.moveAct v get x
  if (match act with | some n => s.refuses n | none => false) then s.failService v 6
  else s.startSoft act todo errs 3 v.req.sep (.service v.req)

/-- Line slots of a part to its owner, each with the table's VER, this module and the line's address (09 R238; 15 R356). -/
def State.sendPart (s : State) (v : Service) (x : MovePart) (stype : Nat) (data : List Line) : State :=
  ((data.zipIdx).foldl (fun s l => s.sendSlot x.mod (mkSlot stype 2 v.req.cls.val (v.req.bytes 4 4)
    (s.fab.cfg.modid.toNat * 2 ^ 48 + (x.far + 64 * l.2)) l.1)) s).setService v { v with sent := true }

/-- What the owner answered ends a move, or goes on with it. -/
def State.answered (s : State) (v : Service) (a : OwnerAnswer) (go : List Line → State) : State :=
  match a with
  | .pending => s
  | .lines ls => go ls
  | .done => go []
  | .stale => s.failService v 4
  | .epoch => s.failService v 3

/-- A part of a move begins, or its owner's answer is taken: a local part copies lines; a get from another module asks for them and writes them when they have come; a put there reads them, sends them and waits for the answer. -/
def State.partStart (s : State) (v : Service) (get : Bool) (x : MovePart) (remote : OwnerAnswer) (errs : List (Nat × EccResult)) : State :=
  let far := linesFrom x.far x.k
  let near := linesFrom x.near x.k
  if s.softBusy (.service v.req) || (s.softEnded (.service v.req)).isSome then s
  else if x.mod = s.fab.cfg.modid.toNat then
    s.startPart v get x ((if get then far.zip near else near.zip far).map (fun e => SoftLine.copy e.1 e.2)) errs
  else if get then
    if !v.sent then s.sendPart v x 3 (List.replicate x.k 0)
    else s.answered v remote (fun ls => if ls.length = x.k then s.startPart v get x ((near.zip ls).map (fun e => SoftLine.put e.1 e.2)) errs else s)
  else if !v.sent then s.startPart v get x (near.map SoftLine.read) errs
  else s.answered v remote (fun ls => if ls.isEmpty then s.moved v x.k else s)

/-- The lines of a part have been moved on this die: those for another module go out to it, any other part has moved. -/
def State.partEnd (s : State) (v : Service) (get : Bool) (x : MovePart) : State :=
  match s.softEnded (.service v.req) with
  | none => s
  | some j =>
    let s := s.dropDone j
    if j.bad then s.failService v 6
    else if x.mod ≠ s.fab.cfg.modid.toNat && !get then s.sendPart v x 2 j.lines
    else s.moved v x.k

/-- A part of an OTGET or OTPUT, or its start. -/
def moveStep (n hnd : Nat) (remote : OwnerAnswer) (errs : List (Nat × EccResult)) (s : State) : Result :=
  match s.serviceAt n (fun h => h = hnd) with
  | none => .next s
  | some v =>
    if !v.accepted then .next (s.startMove v)
    else if v.left = 0 then .next s
    else match s.movePart v with
      | none => .next (s.failService v 4)
      | some x => .next ((s.partStart v (hnd == 0x10) x remote errs).partEnd v (hnd == 0x10) x)

/-- OTGET (11 R274): units move from their owners to LADDR, one part at a time in ascending offset. -/
def execOtget (n : Nat) (remote : OwnerAnswer) (errs : List (Nat × EccResult)) (s : State) : Result := moveStep n 0x10 remote errs s

/-- OTPUT (11 R274): units move from LADDR to their owners. -/
def execOtput (n : Nat) (remote : OwnerAnswer) (errs : List (Nat × EccResult)) (s : State) : Result := moveStep n 0x11 remote errs s

/-- OT_MOVE_DONE (11 R274): every part has moved; the reply with STAT 0 is sent. -/
def execOtMoveDone (n : Nat) (s : State) : Result :=
  match s.serviceAt n (fun h => h = 0x10 || h = 0x11) with
  | none => .next s
  | some v => if v.accepted && v.left = 0 then .next (s.serviceDone v) else .next s

end Sys2Proof.Machine
end

