-- ==== Sys2Proof/Machine/Reset.lean ====
section
/-! DEFINITION. Reset.lean: what resets, power-downs, link resets and alarms have in common (12 R283, R290; 14 R330, R331; 15 R358; 16 R366-R373, R379-R381). -/

namespace Sys2Proof.Machine

/-! ## Stopping -/

/-- A partition that runs or stands halted is stopped and its vector raised (13 R319; 15 R348). -/
def State.stopTold (s : State) (p : PartId) : State := if (s.part p).live then (s.stopPart p).raise p.val else s

/-- Every partition is stopped; releases not yet begun are dropped. -/
def State.stopAll (s : State) : State :=
  (allParts.foldl (fun s p => s.stopTold p) s) |> fun s => allParts.foldl (fun s p => s.modPart p (fun q => { q with release := none })) s

/-- The manager die stops a partition that runs or stands halted, once the die-to-die link carries the command (17 R386). -/
def State.stopAcross (s : State) (p : PartId) : State :=
  if s.fab.d2dTraining then s.modPart p (fun q => { q with stopAsked := true }) else s.stopTold p

/-- The manager die stops every partition; releases not yet begun are dropped. -/
def State.stopAllAcross (s : State) : State :=
  if s.fab.d2dTraining then allParts.foldl (fun s p => s.modPart p (fun q => { q with stopAsked := true, release := none })) s else s.stopAll

/-- The stops that waited for the link. -/
def State.waitedStops (s : State) : State :=
  allParts.foldl (fun s p => if (s.part p).stopAsked then (s.stopTold p).modPart p (fun q => { q with stopAsked := false }) else s) s

/-! ## Link resets (15 R358, 11 R276, 10 R256) -/

/-- What is sent again in a new epoch: answers and barrier messages (11 R275, R276; 10 R256). -/
def resent (x : FabSlot) : Bool := isBarrier x || (slotType x = 1 && !isRequest x)

/-- An answer to a request of this die that went to another module: its reserved reply entry; where an NR = 1 request's has been freed, as nothing tells this die when such a request enters its final queue in switched mode, the answer takes one more entry, since none is dropped (11 R262, R275; DESIGN CHOICE, log 91). -/
def State.toAsker (s : State) (u : Asked) (m : Msg) : State :=
  let m := { m with gen := u.req.gen }
  let s := match epCore u.req.sep with
    | some c => if u.freed && (s.core c).mu.gen == m.gen then s.modMu c (fun u => { u with rpHeld := u.rpHeld + 1 }) else s
    | none => s
  s.sendMsg m

/-- A request that a link lost has its credit back: this module's own, or owed to the port it came in on (15 R359). -/
def State.lostCredit (s : State) (n : PortId) (m : Msg) : State :=
  match s.fab.ports[n].through.find? (fun e => e.1 == m.dmod * 4 + m.cls.val && e.2.isSome != s.fromDie m) with
  | none => s
  | some e =>
    let s := s.modPort n (fun q => { q with through := q.through.erase e })
    match e.2 with
    | none => { s with fab := { s.fab with reqUsed := s.fab.reqUsed.erase e.1 } }
    | some p => s.oweCredit p m.cls

/-- The manager die's NAK EPOCH for a request lost with an epoch: to its core, or back towards its module. -/
def State.lostRequest (s : State) (n : PortId) (x : FabSlot) : State :=
  let m := slotMsg x
  let s := s.lostCredit n m
  match s.fab.ports[n].unacked.find? (fun u => u.hdr == m.hdr && u.payload == m.payload) with
  | some u =>
    let a := (s.fab.asked.find? (fun a => a.req == u)).getD { req := u, freed := false }
    let s := { s with fab := { s.fab with asked := s.fab.asked.erase a } }
    (s.modPort n (fun q => { q with unacked := q.unacked.erase u })).toAsker a (u.nak 3)
  | none => if m.smod = s.fab.cfg.modid.toNat then s else s.sendSlot m.smod (msgSlot (m.nak 3))

/-- A request received on a link whose epoch ends before it entered its receiver's queue: the other end answers it with NAK EPOCH, or this one where it has acknowledged it already; each once (11 R276; DEDUCED, log 24). -/
def State.staleRequest (s : State) (n : PortId) (acked : Bool) (m : Msg) : State :=
  if !acked then s
  else
    let s := if m.dmod = s.fab.cfg.modid.toNat || s.fab.cfg.flow ≠ 0 then s.returnCredit m else s.oweCredit n m.cls
    s.sendSlot m.smod (msgSlot (m.nak 3))

/-- The requests that wait in a port's queue leave it as its epoch ends. -/
def State.dropReceived (s : State) (n : PortId) : State :=
  let q := s.fab.ports[n]
  let gone := q.rx.filter isRequest
  gone.foldl (fun s x => s.staleRequest n (!q.rxNew.contains x) (slotMsg x))
    (s.modPort n (fun q => { q with rx := q.rx.filter (fun x => !isRequest x), rxNew := [], barred := [] }))

/-- The moves with a part outstanding on a port: slots of it have gone out towards its owner there (15 R358). -/
def State.movesOn (s : State) (n : PortId) : List Service :=
  s.services.filter (fun v => v.sent && (match s.movePart v with
    | some x => x.mod ≠ s.fab.cfg.modid.toNat && s.toward x.mod == some n
    | none => false))

/-- The line slots of this module that wait at a port. -/
def ownLines (mod : Nat) (x : FabSlot) : Bool := (slotType x = 2 || slotType x = 3) && slotAddr x / 2 ^ 48 % 4096 = mod

/-- The requesters of those moves receive NAK EPOCH; slots of theirs that wait at the port are dropped. -/
def State.lostMoves (s : State) (n : PortId) (vs : List Service) : State :=
  if vs.isEmpty then s
  else vs.foldl (fun s v => s.failService v 3) (s.modPort n (fun q => { q with tx := q.tx.filter (fun x => !ownLines s.fab.cfg.modid.toNat x) }))

/-- In switched mode the streams of other modules go on from their next slot: numbers lost with the epoch are not awaited (15 R360; log 60). -/
def State.freshStreams (s : State) : State :=
  if s.fab.cfg.flow = 0 then s
  else
    let theirs := (s.fab.e2e.map Prod.fst).filter (fun k => k / 65536 != s.fab.cfg.modid.toNat)
    { s with fab := { s.fab with resync := theirs ++ s.fab.resync.filter (fun k => !theirs.contains k) } }

/-- A link reset of a port in use: the link is down and its epoch advances; cause in the order of R358. -/
def State.linkReset (s : State) (n : PortId) (cause : Nat) : State :=
  let q := s.fab.ports[n]
  if !q.inUse then s else
  let old := q.buffer.flatMap Flit.slots
  let moves := s.movesOn n
  let s := if q.up then s.raise 10 else s
  let s := s.modPort n (fun q => { q with
    up := false, epoch := q.epoch + 1, lreset := satAdd q.lreset 1, buffer := [], replaying := [], replays := 0, rnakOwed := false,
    noticeOwed := true, rxValid := false, credits := 512, creditOwed := 0, tx := old.filter resent ++ q.tx })
  let s := (old.filter isRequest).foldl (fun s x => s.lostRequest n x) s
  ((s.dropReceived n).lostMoves n moves).freshStreams.event 0x501 3 none none [BitVec.ofNat 8 n.val, q.epoch + 1, BitVec.ofNat 8 cause]

/-- Every fabric link resets. -/
def State.linksReset (s : State) (cause : Nat) : State := allPorts.foldl (fun s n => s.linkReset n cause) s

/-! ## Wipes and resets of cores (16 R367) -/

/-- A core as a partition reset leaves it: its assize fields and error counters stay. -/
def Core.partitionReset (k : Core) : Core :=
  { Core.reset with
    syn := { SyncUnit.reset with cap := k.syn.cap, scope := k.syn.scope }
    mu := { MessageUnit.reset with
      gen := k.mu.gen + 1, fab := k.mu.fab, peers := k.mu.peers, c0res := k.mu.c0res, rpDepth := k.mu.rpDepth, rqDepth := k.mu.rqDepth }
    cfg := { k.cfg with poison := [], scrubBack := none, armedCode := none } }

/-- A core as a warm reset leaves it: its error counters stay (04 R90). -/
def Core.warmReset (k : Core) : Core :=
  { Core.reset with
    mu := { MessageUnit.reset with gen := k.mu.gen + 1 }
    cfg := { CoreConfig.reset with
      scrubPasses := k.cfg.scrubPasses, tileCe := k.cfg.tileCe, ue := k.cfg.ue, ce := k.cfg.ce, lastCe := k.cfg.lastCe,
      lastTileCe := k.cfg.lastTileCe } }

/-- The slices and tile registers of a core. -/
def coreSpans (c : CoreId) : List (Nat × Nat) := [(sliceBase c, sliceBytes), (tileAlias c 0 0 0, 0x100000)]

/-- A core's poison marks and pending scrub write-back, as far as they lie outside wiped storage: a wipe writes every line there (04 R89). -/
def CoreConfig.wiped (g : CoreConfig) (gone : Nat → Bool) : CoreConfig :=
  { g with
    poison := g.poison.filter (fun a => !gone a)
    scrubBack := match g.scrubBack with | some x => if gone x.1 then none else some x | none => none }

/-- Storage wiped to zero (04 R105, 16 R373). -/
def State.wipeSpans (s : State) (l : List (Nat × Nat)) : State :=
  let gone : Nat → Bool := fun a => l.any (fun x => x.1 ≤ a && a < x.1 + x.2)
  { s with
    mem := l.foldl (fun m x => memWipe m x.1 x.2) s.mem, wbuf := s.wbuf.filter (fun e => !gone e.1)
    cores := s.cores.map (fun k => { k with cfg := k.cfg.wiped gone }) }

/-- A partition's slices, tile registers and HBM share. -/
def State.storageOf (s : State) (p : PartId) : List (Nat × Nat) := (s.coresOf p).flatMap coreSpans ++ [s.hbmWindow p]

/-- Pseudo-channels of a partition's share return to their reset counts (08 R217). -/
def State.clearChannels (s : State) (p : PartId) : State :=
  { s with pcs := s.pcs.filterMap (fun (e : Nat × PseudoChannel) =>
      if s.ownerOf e.1 == some p then
        some (e.1, { PseudoChannel.reset with lastRefresh := e.2.lastRefresh, lastStart := e.2.lastStart, busyTo := e.2.busyTo, serving := match e.2.serving with
          | some (.refresh f, t) => some (.refresh f, t)
          | _ => none })
      else some e) }

/-! ## Partition reset (16 R368) -/

/-- The records of a partition's halt are durable (17 R397). -/
def State.haltDurable (s : State) (p : PartId) : Bool :=
  (s.part p).pstate != .halted || ((s.part p).haltTold && !s.ev.undurable.any (fun d => d.part == some p))

/-- An owner-table move under way that has yet to write into a partition's storage on this module (17 R398). -/
def State.movesInto (s : State) (p : PartId) (v : Service) : Bool :=
  v.accepted && v.req.hnd == 0x11 && v.req.dmod == s.fab.cfg.modid.toNat && (match s.ownerTable (v.req.bytes 0 2) with
    | none => false
    | some t => (t.drop 4).any (fun e =>
        let lo := max v.off (fld e 39 0)
        let hi := min (v.off + v.left) (fld e 39 0 + fld e 63 40)
        fld e 123 112 == s.fab.cfg.modid.toNat && lo < hi &&
        (s.storageOf p).any (fun r => meets (fld e 111 64 + 64 * (lo - fld e 39 0)) (64 * (hi - lo)) r.1 r.2)))

/-- Received slots that a partition reset keeps out: requests to its cores and lines into its storage (11 R271; 17 R398). -/
def State.barredBy (s : State) (p : PartId) (x : FabSlot) : Bool :=
  if isRequest x then
    (match s.ownCore (slotMsg x).dmod (slotMsg x).dep with | some c => (s.coresOf p).contains c | none => false)
  else slotType x = 2 && (s.storageOf p).any (fun r => meets (slotAddr x % 2 ^ 48) 64 r.1 r.2)

/-- What a partition reset ends at the manager die and the ports, so that nothing from before it enters the partition afterwards (17 R398): services of its cores, moves into it, the arming of a transaction, and received slots. -/
def State.cutOff (s : State) (p : PartId) : State :=
  let own : Service → Bool := fun v => s.fromDie v.req && (match epCore v.req.sep with | some c => (s.coresOf p).contains c | none => false)
  let s := (s.services.filter own).foldl (fun s v => s.endService v) s
  let s := (s.services.filter (s.movesInto p)).foldl (fun s v => s.failService v 1) s
  let arming : SoftEnd → Bool := fun f => match f with | .arm q _ => q == p | _ => false
  let s := if s.soft.any (fun j => arming j.fin) then (s.dropSoft arming).asizeDone 6 0x07 else s
  allPorts.foldl (fun s n => s.modPort n (fun q => { q with barred := q.barred ++ (q.rx.filter (s.barredBy p)).filter (fun x => !q.barred.contains x) })) s

/-- A partition reset starts. -/
def State.startPartitionReset (s : State) (p : PartId) : State :=
  let s := ((s.stopTold p).abandonPart p).cutOff p
  let s := (s.coresOf p).foldl (fun s c => s.modCore c Core.partitionReset) s
  ((s.wipeSpans (s.storageOf p)).clearChannels p).modPart p (fun q => { q with
    pstate := .stopped, inrst := true, rstAsked := false, release := none })

/-- Whether a partition reset may start: the records of a halt are durable (17 R397) and the die-to-die link carries the command (17 R386). -/
def State.mayReset (s : State) (p : PartId) : Bool := s.haltDurable p && !s.fab.d2dTraining

/-- A partition reset is asked for: nothing for a partition already in reset or not defined; a halted one waits for its records, any one for the link. -/
def State.partitionReset (s : State) (p : PartId) : State :=
  let q := s.part p
  if q.inrst || q.pstate == .empty then s
  else if s.mayReset p then s.startPartitionReset p
  else s.modPart p (fun q => { q with rstAsked := true })

/-- Partition resets that have waited for their records or for the link. -/
def State.waitedResets (s : State) : State :=
  allParts.foldl (fun s p => if (s.part p).rstAsked && s.mayReset p then s.startPartitionReset p else s) s

/-! ## The compute die in reset -/

/-- The compute die and HBM controllers in reset, all memories wiped (16 R367, R372): oscillator at its alignment set point (12 R290). -/
def State.computeReset (s : State) : State :=
  { s with
    mem := [], wbuf := [], soft := [], softDone := [], softUsed := [], cores := s.cores.map Core.warmReset, parts := .replicate 8 .reset, pcs := [], transit := [], net := []
    mgrFromDie := .replicate 4 0, mgrFromFab := .replicate 4 0, services := []
    clk := { s.clk with
      running := false, cycle := 0, setMhz := 1000, shownMhz := 0, target := 0, excur := 0, lowest := 0x3FF, change := none,
      deferred := none, endedAt := none, adj := 0, shadow := 0, sinceSlew := 0, refLoss := s.clk.refLost, refBad := false,
      stretchMgr := 0, stretchNet := 0, offsetDraw := s.clk.offsetDraw + 1 }
    asz := { AssizeUnit.reset with sigFail := s.asz.sigFail }
    rr := .reset
    host := { s.host with act := 0, free := false, hbmEn := 0, spEn := 0, sessions := [], bells := [], rings := 0 }
    ev := { s.ev with rdSeq := 0, latched := none }
    sec := { s.sec with ready := false, rstPmask := 0 } }

/-- The start of a warm reset. -/
def State.enterWarm (s : State) (cause : Nat) : State :=
  let s := ((s.stopAll.linksReset 2).computeReset).coreRail 1000
  { s with
    fab := { FabricState.reset with d2dEpoch := s.fab.d2dEpoch, d2dResets := s.fab.d2dResets, d2dRetries := s.fab.d2dRetries }
    sec := { s.sec with phase := .warm, cause := BitVec.ofNat 4 cause, wipe := s.sec.wipe || cause = 5 } }

/-- A warm reset (16 R372); one during another, or during a boot, does nothing. -/
def State.warmReset (s : State) (cause : Nat) : State :=
  if s.sec.phase ≠ .ready || s.pow.state ≠ .on then s else s.enterWarm cause

/-! ## Power-down (14 R331) -/

/-- The rails in the order in which they fall, MGR apart (14 R331). -/
def fallOrder : List (Fin 8) := [0, 1, 4, 3, 2, 6, 7]

/-- A power-down: PWR_GOOD falls, the oscillator stops, the rails fall in their order, MGR last unless the part stays in standby, every partition and all memory are lost. As MGR falls the part lets go of THERM_ALERT_N and the storage indicator arms itself (18 R406, R414). -/
def State.powerDown (s : State) (next : PowerState) (cause : Nat) : State :=
  let s := (s.computeReset).railsOff (fallOrder ++ (if next = .standby then [] else [5]))
  { s with
    pow := { s.pow with
      state := next, pwrGood := false, thermAlert := s.pow.thermAlert && next == .standby, downAt := s.clk.tb.toNat, underNs := none, overNs := none, ampNs := none, lowSince := none }
    host := { HostUnit.reset with linkUp := false }
    fab := .reset
    sec := { s.sec with
      phase := .cold, cause := BitVec.ofNat 4 cause, wipe := false, ideStopped := 0
      storageArmed := s.sec.storageArmed || next != .standby } }

/-- A shutdown of R331 with its POWER_DOWN record: cause 1-5 and, for a critical temperature, the sensor. -/
def State.shutdown (s : State) (next : PowerState) (cause sensor : Nat) : State :=
  let s := if cause = 5 then s else s.event 0x403 6 none none [BitVec.ofNat 8 cause, BitVec.ofNat 8 sensor]
  s.powerDown next 7

/-! ## Whether the manager die and the host reach each other -/

/-- Whether the manager die has power. -/
def State.mgrUp (s : State) : Bool := s.pow.state == .on || s.pow.state == .standby

/-- Whether the host link carries requests: up, in D0, its link stream of IDE not stopped for want of keys (15 R340; 16 R378). A stopped selective stream stops the traffic that the host has put on it, which no command here names (DESIGN CHOICE, log 96). -/
def State.hostUp (s : State) : Bool := s.mgrUp && s.host.linkUp && !s.host.d3hot && !bit s.sec.ideStopped 0

/-! ## The security alarm (16 R379-R381) -/

/-- The keys that a trigger erases, in the bit order of POLICY: session keys, storage key, AIK. -/
def SecurityUnit.erases (u : SecurityUnit) (t : Nat) : BitVec 3 :=
  let k := u.policy.extractLsb' (3 * t) 3
  if u.lcs == 0 || u.lcs == 3 then k &&& 1 else k

/-- Keys erased (16 R378): with the session keys the secured session ends, with what has arrived of a CAL_WRITE in it, and every IDE stream stops carrying traffic; with the storage key the assize verification key is unreadable. -/
def SecurityUnit.erase (u : SecurityUnit) (k : BitVec 3) : SecurityUnit :=
  { u with
    sessionKeys := u.sessionKeys && !bit k 0
    ide := if bit k 0 then 0 else u.ide
    ideStopped := if bit k 0 then u.ideStopped ||| u.ide else u.ideStopped
    calParts := if bit k 0 then [] else u.calParts
    storageKey := u.storageKey && !bit k 1
    verifyKey := u.verifyKey && !bit k 1
    aik := u.aik && !bit k 2 }

/-- An alarm: TRIG, the keys of the policy, every partition stopped, its record, and a warm reset unless a wipe is already under way. -/
def State.alarm (s : State) (t : Nat) : State :=
  if !s.mgrUp then s else
  let k := s.sec.erases t
  let s := { s with sec := { (s.sec.erase k) with trig := setBit s.sec.trig t true, alarms := satAdd s.sec.alarms 1 }, justSet := .trig t :: s.justSet }
  let s := s.stopAll.event 0x603 7 none none [BitVec.ofNat 8 t, BitVec.ofNat 8 k.toNat]
  if s.sec.phase == .ready then s.warmReset 5
  else { s with sec := { s.sec with wipe := s.pow.state == .on } }

end Sys2Proof.Machine
end

