-- ==== Sys2Proof/Machine/Assize.lean ====
section
/-! DEFINITION. Assize.lean: loading, releasing and stopping partitions and arming transactions (13 R312-R322), and the meanings of their commands. -/

namespace Sys2Proof.Machine

/-! ## Commands and their outcome (13 R312-R314) -/

/-- Whether a requester's command reaches MGR_ASZ_CMD: the host's over its link, a manager module's on a worker (15 R361), the management controller's (00 R11). -/
def State.reaches (s : State) (req : Requester) : Bool :=
  s.mgrUp && (match req with
    | .host => s.hostUp
    | .fabric => s.fab.cfg.role == 2
    | .mctp => !s.sec.bootFail)

/-- The payload of an ASZ_REFUSED record. -/
def refusedBody (cmd stage code : Nat) (pmask : BitVec 8) (digest : BitVec 64) : List Byte :=
  leBytes 1 cmd ++ leBytes 1 stage ++ leBytes 1 code ++ leBytes 1 pmask.toNat ++ leBytes 4 0 ++
    leBytes 8 (if stage = 1 then 0 else digest.toNat)

/-- A refused command: its record, then its outcome. -/
def State.refuse (s : State) (cmd stage code : Nat) (pmask : BitVec 8) (digest : BitVec 64) : State :=
  (s.event 0x301 4 none none (refusedBody cmd stage code pmask digest)).asizeDone stage code

/-- A signature failure: SIGFAIL, its record, and from the third on an alarm (13 R314, 16 R379). -/
def State.sigFailure (s : State) (cmd : Nat) (m : Image) : State :=
  let n := satAdd s.asz.sigFail 1
  let s := { s with asz := { s.asz with sigFail := n } }
  let s := (s.event 0x302 5 none none (refusedBody cmd 2 0 (imgPmask m) (digestPrefix m) ++ leBytes 1 n.toNat)).asizeDone 2 0
  if 3 ≤ n.toNat then s.alarm 3 else s

/-- A register write starts a command that reads an image (13 R312): BUSY is 1 from then on, and the read of the image starts at MGR_ASZ_ADDR. -/
def State.startImage (s : State) (req : Requester) (cmd : Nat) : State :=
  { s with asz := { s.asz with busy := true, reading := some (cmd, req) } }.emit (.hostRead s.asz.addr.toNat 64)

/-- The PMASK that a command's write of MGR_ASZ_CMD stores; a manager module's command writes none (13 R312; 15 R361). -/
def State.storeMask (s : State) (req : Requester) (pmask : BitVec 8) : State :=
  if req = .fabric then s else { s with asz := { s.asz with pmask := pmask } }

/-- A command that reads an image, begun by a register write or beginning now with its own: its first pass, then what follows when every check passes. -/
def State.checkImage (s : State) (req : Requester) (cmd : Nat) (m : Image) (pmask : BitVec 8) (go : State → State) : State :=
  if !s.reaches req then s
  else if s.asz.busy && s.asz.reading ≠ some (cmd, req) then s.errorTo req
  else
    let s := if s.asz.busy then s else s.storeMask req pmask
    let r := s.firstPass m (cmd == 1)
    if r = (2, 0) then s.sigFailure cmd m
    else if r = (0, 0) then go s
    else s.refuse cmd r.1 r.2 (imgPmask m) (digestPrefix m)

/-- The LOAD command: when every check passes BUSY stays 1 until the second pass has applied the image. -/
def State.loadCmd (s : State) (req : Requester) (img : Image) (pmask : BitVec 8) : State :=
  s.checkImage req 1 img pmask (fun s : State => { s with asz := { s.asz with busy := true, reading := none, applying := some { img := img, req := req } } })

/-- LOAD (13 R313): the first pass of an assize image; PMASK is stored, and the image's own is used. -/
def execLoad (req : Requester) (img : Image) (pmask : BitVec 8) (s : State) : Result := .next (s.loadCmd req img pmask)

/-! ## The second pass (13 R317) -/

/-- A set point within the envelope (12 R285): at least the floor, at most the effective ceiling. -/
def State.inEnvelope (s : State) (mhz : Nat) : Nat :=
  max s.asz.floor (min mhz (effCeil s.pow.cls.toNat s.pow.calBad s.asz.ceil s.asz.boost))

/-- A change chosen or kept before a load, its target in the new envelope; none where the set point stands there already. -/
def State.clampChange (s : State) : State :=
  { s with clk := { s.clk with
      change := s.clk.change.bind (fun k => let t := s.inEnvelope k.target; if t = s.clk.setMhz then none else some { k with target := t })
      deferred := s.clk.deferred.map s.inEnvelope } }

/-- After a load the set point lies in the new envelope, and so do the targets of changes that have not ended (12 R285; DESIGN CHOICE, log 35). Where it lay outside, no program runs then: it moves, and they are dropped. Before the first release it stays where alignment left it (R290). -/
def State.enterEnvelope (s : State) : State :=
  if s.clk.shownMhz = 0 || s.inEnvelope s.clk.setMhz = s.clk.setMhz then s.clampChange
  else
    let f := s.inEnvelope s.clk.setMhz
    { s with clk := { s.clk with setMhz := f, shownMhz := BitVec.ofNat 12 f, change := none, deferred := none } }.coreRail f

/-- A fabric port under a new configuration: one not in use is down, which raises vector 10 if it was up (15 R363). -/
def State.applyPorts (s : State) (fab : FabricConfig) : State :=
  allPorts.foldl (fun s n =>
    let used := bit fab.ports n.val && fab.role != 0
    let s := if s.fab.ports[n].up && !used then s.raise 10 else s
    s.modPort n (fun q => { q with inUse := used, up := q.up && used })) s

/-- The die-wide sections of a load image take effect. -/
def State.applyDie (s : State) (m : Image) : State :=
  let rec_ := imgRecord m
  let k := imgClock m
  let fab := match imgOf m 7 with | x :: _ => fabricOf m x | [] => s.fab.cfg
  let acts := match imgOf m 6 with
    | w :: _ => ((List.range 256).map (fun n => (n, activityOf (secNat m w (8 + 8 * n) 8) (s.act n)))).filter (fun e => e.2 != .reset)
    | [] => s.asz.acts
  let energy := match imgOf m 6 with | w :: _ => BitVec.ofNat 20 (secNat m w 0 8) | [] => s.asz.energy
  let same := s.rr.rrBase.toNat = rec_.1 && s.rr.rrCnt.toNat = rec_.2
  (State.enterEnvelope { s with
    parts := Vector.ofFn (fun p : PartId => { s.parts[p] with pr := imgParts m p })
    asz := { s.asz with
      floor := k.1, ceil := k.2.1, boost := k.2.2, acts := acts, energy := energy, owners := (imgOf m 8).map (ownerWords m) }
    rr := { s.rr with
      rrBase := BitVec.ofNat 8 rec_.1, rrCnt := BitVec.ofNat 8 rec_.2
      region := if same then s.rr.region else []
      mode := if rec_.2 = 0 then 0 else s.rr.mode }
    fab := { s.fab with cfg := fab, tbAligned := false } }).applyPorts fab

/-- The granules of a slice whose class a CORE section changes are zero filled (04 R87). -/
def State.fillGranules (s : State) (c : CoreId) (new : BitVec 448) : State :=
  let old := (s.core c).cfg.granule
  let changed := (List.range 448).filter (fun g => bit old g != bit new g)
  (s.wipeSpans (changed.map (fun g => (sliceBase c + 0x10000 * g, 0x10000)))).modCfg c (fun k => { k with granule := new })

/-- The CORE sections of the affected partitions; a core of no partition has its assize fields at reset. -/
def State.applyCores (s : State) (m : Image) : State :=
  let rs := s.recordsFor m
  allCores.foldl (fun s c =>
    match allParts.find? (fun p => rs[p].covers c) with
    | none => s.modCore c clearCore
    | some p =>
      if imgAffects m p then
        match coreSection m rs c with
        | some x => (s.modCore c (setCore m x)).fillGranules c (granulesUnder m x (s.core c).cfg.granule)
        | none => s
      else s) s

/-- The CODE bundles of an image written into the slices. -/
def State.applyCode (s : State) (m : Image) : State :=
  (imgCode m).foldl (fun s x =>
    match epCore x.core with
    | some c => ((codeLines m x).zipIdx).foldl (fun s l => s.writeNow (sliceBase c + x.off + 64 * l.2) l.1) s
    | none => s) s

/-- The affected partitions after a load: stopped, or empty where the record is not valid. -/
def State.applyStates (s : State) (m : Image) : State :=
  allParts.foldl (fun s p =>
    if imgAffects m p then
      let v := (s.part p).pr.valid
      let s := s.modPart p (fun q => { q with pstate := if v then .stopped else .empty, release := none })
      { s with asz := { s.asz with kept := if v then putKey p.val m s.asz.kept else s.asz.kept.filter (fun e => e.1 != p.val) } }
    else s) s

/-- What the affected partitions of an image still hold of their last tasks is abandoned (13 R319). -/
def State.abandonAffected (s : State) (m : Image) : State :=
  allParts.foldl (fun s p => if imgAffects m p then s.abandonPart p else s) s

/-- The whole second pass, in the order of 13 R317. -/
def State.applyImage (s : State) (m : Image) : State :=
  let s := ((((s.abandonAffected m).applyDie m).applyCores m).applyCode m).applyStates m
  { s with asz := { s.asz with loaded := some m, digest := digestPrefix m } }

/-- The storage that an image's record gives a partition. -/
def State.imgStorage (s : State) (m : Image) (p : PartId) : List (Nat × Nat) :=
  let r := imgParts m p
  if r.valid then (imgCores m p).flatMap coreSpans ++ [(hbmBase + r.pcBase.toNat * s.grade.bandBytes, r.b.toNat * s.grade.bandBytes)] else []

/-- The affected partitions of a load whose second pass found another image: wiped, under the record they had and the one the image gives them, and left empty. -/
def State.spoilLoad (s : State) (m : Image) : State :=
  allParts.foldl (fun s p =>
    if imgAffects m p then
      let s := (s.abandonPart p).wipeSpans (s.storageOf p ++ s.imgStorage m p)
      let s := (s.coresOf p).foldl (fun s c => s.modCore c clearCore) s
      let s := { s with asz := { s.asz with kept := s.asz.kept.filter (fun e => e.1 != p.val) } }
      s.modPart p (fun q => { q with pstate := .empty, pr := .none, release := none })
    else s) s

/-- ASSIZE_APPLY (13 R313, R317): the second pass applies the image it reads if its digest is the first pass's; otherwise the load ends with STAGE 7. It waits while the die-to-die link trains anew (17 R386). -/
def execAssizeApply (img : Image) (s : State) : Result :=
  match s.asz.applying with
  | none => .next s
  | some a =>
    if s.fab.d2dTraining then .next s
    else if imgDigest img = imgDigest a.img then .next ((s.applyImage img).asizeDone 0 0)
    else .next ((s.spoilLoad a.img).refuse 1 7 0 (imgPmask a.img) (digestPrefix a.img))

/-! ## Release (13 R318, 12 R304) -/

/-- Whether some partition of a mask is in a partition reset. -/
def State.anyInReset (s : State) (pmask : BitVec 8) : Bool := allParts.any (fun p => bit pmask p.val && (s.part p).inrst)

/-- A command on the partitions of a mask: with its register's PMASK, and once the die-to-die link carries it (17 R386). -/
def State.onParts (s : State) (cmd : Nat) (req : Requester) (pmask : BitVec 8) (go : State → State) : State :=
  if !s.reaches req then s
  else if s.asz.busy then s.errorTo req
  else
    let s := s.storeMask req pmask
    if s.fab.d2dTraining then { s with asz := { s.asz with busy := true, crossing := some (cmd, pmask, req) } } else go s

/-- The first word of the recording's START record. -/
def State.startRecord (s : State) : Option (List Byte) := s.rr.region.find? (fun r => recType r == 1)

/-- A release in replay mode is refused: an incomplete recording, or one of another assize (12 R304). -/
def State.replayRefused (s : State) (pmask : BitVec 8) : Bool :=
  s.rr.mode == 2 && bit pmask s.rr.part.val &&
  (s.rr.incomplete || (match s.startRecord with | some r => recWord r 0 != s.asz.digest.toNat | none => true))

/-- A core as a release prepares it (03 R55, 07 R175, 10 R239, 11 R278). Its sticky flags are 0 as 07 R175 and 13 R318 say: a task finds them as the previous one left them (07 R163) only up to its release (DEDUCED, log 46). -/
def Core.prepared (k : Core) : Core :=
  { k with
    ctl := .reset
    vec := { k.vec with flags := 0 }
    syn := { k.syn with s := .replicate 48 0, bar := .replicate 16 .idle }
    mu := { k.mu with staging := .replicate 16 none } }

/-- The input slots of a partition's manifest. -/
def State.manifestSlots (s : State) (p : PartId) : Vector InputSlot 32 :=
  match s.asz.kept.lookup p.val with
  | none => .replicate 32 .none
  | some m => match imgPart m 1 p with
    | some x => Vector.ofFn (fun i : Fin 32 => { manifestSlot m x i.val with readyFor := 1 })
    | none => .replicate 32 .none

/-- The device address of a line of a slot's half. -/
def InputSlot.lineAt (sl : InputSlot) (half line : Nat) : Nat := sliceBase sl.core + sl.base + 64 * (sl.h * half + line)

/-- An EMPTY header written as a partition is released, with its WRITE record. -/
def State.emptyHeader (s : State) (p : PartId) (sl : InputSlot) (half : Nat) : State :=
  let a := sl.lineAt half 0
  (s.putLine a 0).rrWrite p a 2 sl.core.val 0

/-- EMPTY headers into line 0 of both halves of every slot at release (15 R351); a replay takes them from its records (12 R304). -/
def State.emptySlots (s : State) (p : PartId) : State :=
  if s.replaying p then s
  else all32.foldl (fun s i => let sl := (s.part p).slots[i]
    if sl.valid then (s.emptyHeader p sl 0).emptyHeader p sl 1 else s) s

/-- A partition prepared for release: what is left of its last task is abandoned, its counters, its cores, its slots, the release cycle at least 8,192 c ahead at or after a time. -/
def State.prepare (s : State) (p : PartId) : State :=
  let s := s.abandonPart p
  let s := (s.coresOf p).foldl (fun s c => s.modCore c Core.prepared) s
  let slots := s.manifestSlots p
  s.modPart p (fun q => { Part.reset with
    pr := q.pr, pstate := .stopped, txnIcount := q.txnIcount, txnId := q.txnId, txnResult := q.txnResult, slots := slots
    release := some (s.clk.cycle.toNat + 8192, s.asz.relTb.toNat) })

/-- RELEASE as the compute die carries it out. -/
def State.releaseNow (s : State) (req : Requester) (pmask : BitVec 8) : State :=
  if s.anyInReset pmask then s.refuse 2 6 0x07 pmask s.asz.digest
  else if allParts.any (fun p => bit pmask p.val && (s.part p).pstate != .stopped) then s.refuse 2 6 0x01 pmask s.asz.digest
  else if s.replayRefused pmask then { s with asz := { s.asz with busy := false } }.errorTo req
  else (allParts.foldl (fun s p => if bit pmask p.val then s.prepare p else s) s).asizeDone 0 0

/-- The RELEASE command. -/
def State.releaseCmd (s : State) (req : Requester) (pmask : BitVec 8) : State :=
  s.onParts 2 req pmask (fun s : State => s.releaseNow req pmask)

/-- RELEASE (13 R318): every partition of the mask must be stopped and in no reset; each is then prepared for its release cycle. -/
def execRelease (req : Requester) (pmask : BitVec 8) (s : State) : Result := .next (s.releaseCmd req pmask)

/-- The set point that a release sets: the recorded one in replay (12 R304), at the first release a free value of the envelope in steps of 25 MHz, as no rule gives it (12 R290; DESIGN CHOICE, log 35), else the present one (R285). -/
def State.releasePoint (s : State) (p : PartId) : Nat :=
  match s.replaying p, s.startRecord with
  | true, some r => s.inEnvelope (recWord r 2)
  | _, _ =>
    if s.clk.shownMhz = 0 then
      let top := effCeil s.pow.cls.toNat s.pow.calBad s.asz.ceil s.asz.boost
      s.inEnvelope (s.asz.floor + 25 * ((Config.freeValue s.fresh).toNat % ((top - s.asz.floor) / 25 + 1)))
    else s.inEnvelope s.clk.setMhz

/-- A request of the power and thermal controller: a change count at least 8,192 c ahead is chosen; while a change is under way, or within 50 us of the last one's end, the request is kept, the last one only. -/
def State.requestChange (s : State) (target : Nat) : State :=
  let soon := match s.clk.endedAt with | some t => s.ns < t + 50000 | none => false
  if s.clk.change.isSome || soon then { s with clk := { s.clk with deferred := some target } }
  else { s with clk := { s.clk with
    deferred := none
    change := some { n := s.clk.cycle.toNat + 8192, target := target, old := s.clk.setMhz, settled := target ≤ s.clk.setMhz, started := false,
                     nextStep := s.clk.cycle.toNat + 8192 } } }

/-- The set point moved to a value. -/
def State.moveTo (s : State) (mhz : Nat) : State := { s with clk := { s.clk with setMhz := mhz, shownMhz := BitVec.ofNat 12 mhz } }

/-- The set point as a release sets it: a change chosen from another one is requested anew from there (12 R292, R293; DESIGN CHOICE, log 35). -/
def State.releaseSet (s : State) (mhz : Nat) : State :=
  let t := s.moveTo mhz
  match s.clk.change with
  | some k =>
    let goal := s.clk.deferred.getD k.target
    let t' := { t with clk := { t.clk with change := none, deferred := none } }
    if mhz = s.clk.setMhz then t else if goal = mhz then t' else t'.requestChange goal
  | none => t

/-- The core rail at a release: at the set point's voltage; while a change is under way only raised to it, since the change lowers the rail as it ends (12 R292, 14 R329). -/
def State.releaseRail (s : State) : State :=
  if s.clk.change.isSome && coreVolts s.clk.setMhz ≤ s.pow.rails[0] then s else s.coreRail s.clk.setMhz

/-- RELEASE_CYCLE (13 R318): in the chosen cycle every core stands before its entry-point bundle at issue count 0, its slots are empty, and the release refresh is done (08 R214; 15 R351). -/
def execReleaseCycle (p : PartId) (s : State) : Result :=
  if s.releaseDue p then
    let mhz := s.releasePoint p
    let s := { s.releaseSet mhz with
      fresh := s.fresh + 1
      rr := if s.rr.part = p then { s.rr with seqPos := 0, seqNo := 0, cursor := 0 } else s.rr }
    let s := s.releaseRail.releaseRefresh p
    let s := s.modPart p (fun q => { q with pstate := .running, release := none, refreshed := false, tb0 := s.clk.sample })
    let s := (s.coresOf p).foldl (fun s c => s.modCtl c (fun u => { u with
      pc := (s.core c).cfg.entry.setWidth 48 })) s
    let s := s.rrNote p 1 0xFF (leBytes 8 s.asz.digest.toNat ++ leBytes 8 s.clk.sample.toNat ++ leBytes 8 mhz ++ leBytes 8 0) (some 0)
    .next ((s.emptySlots p).takeScript p)
  else .next s

/-! ## Stop (13 R319) -/

/-- STOP as the compute die carries it out. -/
def State.stopNow (s : State) (pmask : BitVec 8) : State :=
  if s.anyInReset pmask then s.asizeDone 6 0x07
  else (allParts.foldl (fun s p => if bit pmask p.val then s.stopTold p else s) s).asizeDone 0 0

/-- The STOP command. -/
def State.stopCmd (s : State) (req : Requester) (pmask : BitVec 8) : State :=
  s.onParts 3 req pmask (fun s : State => s.stopNow pmask)

/-- STOP (13 R319): the running and halted partitions of the mask stop; none does if one is in a partition reset. -/
def execStop (req : Requester) (pmask : BitVec 8) (s : State) : Result := .next (s.stopCmd req pmask)

/-! ## Transactions (13 R320, R322) -/

/-- The bundles of an image as writes into the slices. -/
def codeWrites (m : Image) : List SoftLine :=
  (imgCode m).flatMap (fun x => match epCore x.core with
    | some c => ((codeLines m x).zipIdx).map (fun l => SoftLine.put (sliceBase c + x.off + 64 * l.2) l.1)
    | none => [])

/-- A checked transaction: its new code regions are closed to writes at once, its bundles are written as accesses of no schedule, and then it is armed (13 R322; 04 R84). -/
def State.armTxn (s : State) (m : Image) : State :=
  match allParts.find? (imgAffects m) with
  | none => s.asizeDone 0 0
  | some p =>
    match imgPart m 10 p with
    | none => s.asizeDone 0 0
    | some x =>
      let s := (s.coresOf p).foldl (fun s c => s.modCfg c (fun g => { g with
        armedCode := (coreSection m (s.recordsFor m) c).map (fun _ => s.codeAfter m c) })) s
      { s with asz := { s.asz with busy := true } }.startSoft none (codeWrites m) [] 4 0xFF (.arm p
        { id := Fin.ofNat 16 (secNat m x 0 1), epv := secNat m x 1 1 = 1, token := BitVec.ofNat 32 (secNat m x 8 4), img := m })

/-- The ARM command. -/
def State.armCmd (s : State) (req : Requester) (img : Image) (pmask : BitVec 8) : State :=
  s.checkImage req 4 img pmask (fun s : State => s.armTxn img)

/-- ARM (13 R322): the checks of a transaction image, then its bundles are written and it is armed. -/
def execArm (req : Requester) (img : Image) (pmask : BitVec 8) (s : State) : Result := .next (s.armCmd req img pmask)

/-- The armed transaction of a partition commits in the present cycle: a CANCEL of the same cycle comes too late (13 R322). -/
def State.committing (s : State) (p : PartId) : Bool :=
  let q := s.part p
  match q.armed with
  | none => false
  | some a =>
    let r := q.roots[a.id]
    (match r.full with | some t => t + 1 ≤ q.now | none => false) ||
      (q.issuing && r.spanWaiting && r.spanReady && r.spanCommit && r.spanDue ≤ q.count)

/-- CANCEL as the compute die carries it out. -/
def State.cancelNow (s : State) (pmask : BitVec 8) : State :=
  (allParts.foldl (fun s p => if bit pmask p.val && !s.committing p then s.txnOutcome p 2 0 else s) s).asizeDone 0 0

/-- The CANCEL command. -/
def State.cancelCmd (s : State) (req : Requester) (pmask : BitVec 8) : State :=
  s.onParts 5 req pmask (fun s : State => s.cancelNow pmask)

/-- The command that waited for the die-to-die link is carried out, once (17 R386). -/
def State.resumeCmd (s : State) : State :=
  match s.asz.crossing with
  | none => s
  | some (cmd, pmask, req) =>
    let s := { s with asz := { s.asz with crossing := none } }
    match cmd with
    | 2 => s.releaseNow req pmask
    | 3 => s.stopNow pmask
    | _ => s.cancelNow pmask

/-- CANCEL (13 R322): disarms the armed transactions of the mask. -/
def execCancel (req : Requester) (pmask : BitVec 8) (s : State) : Result := .next (s.cancelCmd req pmask)

end Sys2Proof.Machine
end

