-- ==== Sys2Proof/Machine/Window.lean ====
section
/-! DEFINITION. Window.lean: the host's memory windows (15 R346), and the meanings of BAR2_ACCESS and BAR4_ACCESS. -/

namespace Sys2Proof.Machine

/-! ## Which lines a window reaches (15 R346) -/

/-- No live input reaches a partition in replay (12 R304). -/
def State.replayShut (s : State) (p : PartId) (write : Bool) : Bool := write && s.replaying p && (s.part p).live

/-- Whether a window access may touch the line at a slice address: no code region, and for a write none that an armed transaction will have (R346, 13 R322). -/
def State.sliceLineOk (s : State) (c : CoreId) (a : Nat) (write : Bool) : Bool :=
  s.enabled c && a + 64 ≤ sliceBase c + sliceBytes &&
  (match s.partOf c with
   | some p => bit s.host.spEn p.val && insideOne ((s.core c).regions c) a 64 &&
       !((s.core c).codeSpans c write).any (fun r => meets a 64 r.1 r.2) && !s.replayShut p write
   | none => s.host.free)

/-- Whether a window access may touch the line at an HBM address. -/
def State.hbmLineOk (s : State) (a : Nat) (write : Bool) : Bool :=
  let band := (a - hbmBase) / s.grade.bandBytes
  band < 64 &&
  (match s.shareOf a with
   | some p => bit s.host.hbmEn p.val && !s.replayShut p write
   | none => s.host.free && !(s.rr.rrBase.toNat ≤ band && band < s.rr.rrBase.toNat + s.rr.rrCnt.toNat))

/-- Whether a window access may touch a line. -/
def State.windowLineOk (s : State) (a : Nat) (write : Bool) : Bool :=
  s.sec.phase == .ready &&
  (if hbmBase ≤ a then s.hbmLineOk a write
   else match sliceOwner a with
     | some c => s.sliceLineOk c a write
     | none => false)

/-- First line and line count of a span of bytes. -/
def spanLines (dev len : Nat) : Nat × Nat := if len = 0 then (dev / 64 * 64, 0) else (dev / 64 * 64, (dev + len - 1) / 64 - dev / 64 + 1)

/-- Whether every line of a span may be touched. -/
def State.windowOk (s : State) (dev len : Nat) (write : Bool) : Bool :=
  let l := spanLines dev len
  (List.range l.2).all (fun i => s.windowLineOk (l.1 + 64 * i) write)

/-- A window write that is not accepted is dropped with a WIN_DROPPED record. -/
def State.windowDrop (s : State) (dev : Nat) : State := s.event 0x306 3 none none (leBytes 8 dev ++ leBytes 1 0)

/-- A span of a write that touches a partition in replay, whose writes receive an error completion (12 R304). -/
def State.shutSpan (s : State) (dev len : Nat) : Bool :=
  let l := spanLines dev len
  (linesFrom l.1 l.2).any (fun a => match s.partAt a with | some p => s.replayShut p true | none => false)

/-- The bytes that a write gives the line at an address: the first of them, and they. -/
def lineShare (dev : Nat) (data : List Byte) (a : Nat) : Nat × List Byte :=
  if a < dev then (dev - a, data.take (a + 64 - dev)) else (0, (data.drop (a - dev)).take 64)

/-- The lines of a window write: whole ones are written, others read, merged and written (15 R346). -/
def windowWrites (dev : Nat) (data : List Byte) : List SoftLine :=
  let l := spanLines dev data.length
  (linesFrom l.1 l.2).map (fun a =>
    let x := lineShare dev data a
    if x.2.length = 64 then .put a (bytesLine x.2) else .merge a x.1 x.2)

/-- A window access of a host that the link carries: its lines, metered and moved in idle slots (04 R84; 15 R346, R347). -/
def State.windowAccess (s : State) (dev : Nat) (acc : WindowAccess) (errs : List (Nat × EccResult)) : State :=
  if !s.hostUp then s else
  let act := s.host.act.toNat
  match acc with
  | .read len =>
    let l := spanLines dev len
    if !s.windowOk dev len false || s.refuses act then s.emit (.readData none)
    else s.startSoft (some act) ((linesFrom l.1 l.2).map SoftLine.read) errs 4 0xFF (.host dev len)
  | .write data =>
    if !s.windowOk dev data.length true then
      (let s := s.windowDrop dev; if s.shutSpan dev data.length then s.emit .advisoryError else s)
    else if s.refuses act then s.emit .advisoryError
    else s.startSoft (some act) (windowWrites dev data) errs 4 0xFF .posted

/-- BAR2_ACCESS (15 R346): the scratchpad window. -/
def execBar2Access (off : BitVec 31) (acc : WindowAccess) (errs : List (Nat × EccResult)) (s : State) : Result :=
  .next (s.windowAccess off.toNat acc errs)

/-- BAR4_ACCESS (15 R346): the HBM window. -/
def execBar4Access (off : BitVec 38) (acc : WindowAccess) (errs : List (Nat × EccResult)) (s : State) : Result :=
  .next (s.windowAccess (hbmBase + off.toNat) acc errs)

end Sys2Proof.Machine
end

