-- ==== Sys2Proof/Machine/Fabric.lean ====
section
/-! DEFINITION. Fabric.lean: fabric ports, the slots they carry, time alignment and the die-to-die link (15 R354-R362; 11 R275, R276; 17 R386; 12 R296), and the meanings of their commands. -/

namespace Sys2Proof.Machine

/-! ## Receiving flits (15 R355, R357-R359) -/

/-- Slots that a flit carries to the receiver's queue: empty and reserved ones are not kept. -/
def carried (x : FabSlot) : Bool := 1 ≤ slotType x && slotType x ≤ 7

/-- The credits of slots that are not kept and are not empty: they are owed back at once (15 R359). -/
def lostCredits (l : List FabSlot) : Nat := (l.filter (fun x => slotType x != 0 && !carried x)).length

/-- Whether a request forwarded on a port still waits to be sent or acknowledged. -/
def Port.holds (q : Port) (m : Msg) : Bool :=
  (q.tx ++ q.buffer.flatMap Flit.slots).any (fun x => isRequest x && (slotMsg x).hdr == m.hdr && (slotMsg x).payload == m.payload)

/-- An NR = 1 request to another module has entered its final queue: its reply entry is free (11 R262). -/
def State.freeAsked (s : State) (a : Asked) : State :=
  { s with fab := { s.fab with asked := s.fab.asked.erase a ++ [{ a with freed := true }] } }.freeReply a.req

/-- Requests of this die that ask no reply and whose reply entry is still reserved, of one kind. -/
def State.unfreed (s : State) (f : Msg → Bool) : List Asked := s.fab.asked.filter (fun a => a.req.nr && !a.freed && f a.req)

/-- Flits acknowledged: they leave the buffer. In switched mode, which has no request credits, the NR = 1 requests among them free their reply entries (11 R262; DESIGN CHOICE, log 26). -/
def State.acknowledge (s : State) (n : PortId) (seq : BitVec 12) : State :=
  let q := s.fab.ports[n]
  if q.buffer.any (fun f => f.seq == seq) then
    let rest := (q.buffer.dropWhile (fun f => f.seq != seq)).drop 1
    let q' := { q with
      acked := seq, buffer := rest, replays := 0, lastAck := s.clk.tb.toNat
      replaying := if q.replaying.isEmpty then [] else q.replaying.filter (fun f => rest.any (fun g => g.seq == f.seq)) }
    let gone := q.unacked.filter (fun m => !q'.holds m)
    let s := s.modPort n (fun _ => { q' with unacked := q.unacked.filter (fun m => q'.holds m) })
    if s.fab.cfg.flow = 0 then s else (s.unfreed (fun m => gone.contains m)).foldl (fun s a => s.freeAsked a) s
  else s

/-- A replay starts: every unacknowledged flit is sent again; the fourth of one SEQ resets the link (15 R357, R358). -/
def State.startReplay (s : State) (n : PortId) : State :=
  let q := s.fab.ports[n]
  if q.buffer.isEmpty then s
  else
    let s := s.modPort n (fun q => { q with
      replaying := q.buffer, replays := q.replays + 1, replay := satAdd q.replay 1, lastAck := s.clk.tb.toNat })
    if 4 ≤ q.replays + 1 then s.linkReset n 0 else s

/-- Request credits of a module and class have returned: their requests have left their final queues. As many NR = 1 requests as must be among them free their reply entries, the oldest first (11 R262; DESIGN CHOICE, log 26). -/
def State.leftQueue (s : State) (key : Nat) : State :=
  let mine := s.unfreed (fun m => creditKey m == key)
  (mine.take (mine.length - (s.fab.reqUsed.filter (fun k => k == key)).length)).foldl (fun s a => s.freeAsked a) s

/-- A request credit has come back: it is this module's again, or owed to the port that its request came in on (15 R359). -/
def State.creditBack (s : State) (e : Nat × Option PortId) : State :=
  match e.2 with
  | none => { s with fab := { s.fab with reqUsed := s.fab.reqUsed.erase e.1 } }.leftQueue e.1
  | some p => s.oweCredit p (Fin.ofNat 4 e.1)

/-- Credits that a flit returns (15 R359): slot credits of the link, or request credits of a class, those of the requests that left on the port first. -/
def State.creditReturn (s : State) (n : PortId) (kind count : Nat) : State :=
  if kind = 5 then s.modPort n (fun q => { q with credits := min 512 (q.credits + count) })
  else if 1 ≤ kind && kind ≤ 4 then
    let back := (s.fab.ports[n].through.filter (fun e => e.1 % 4 = kind - 1)).take count
    back.foldl (fun s e => s.creditBack e) (s.modPort n (fun q => { q with through := back.foldl List.erase q.through }))
  else s

/-- An epoch notice with an epoch: after a reset of this module it gives the port its epoch; one of the next epoch means that the other end reset the link (15 R358). -/
def State.notice (s : State) (n : PortId) (epoch : BitVec 8) (seq : Option (BitVec 12)) : State :=
  let q := s.fab.ports[n]
  if q.fresh then s.modPort n (fun q => { q with epoch := epoch, fresh := false, rxValid := seq.isSome, rxSeq := seq.getD 0 })
  else if epoch = q.epoch then s.modPort n (fun q => { q with rxValid := seq.isSome, rxSeq := seq.getD 0 })
  else if epoch = q.epoch + 1 then s.linkReset n 2
  else s

/-- What a good flit's header says: acknowledgement, replay request, credits. -/
def State.flitHeader (s : State) (n : PortId) (f : Flit) : State :=
  let s := s.modPort n (fun q => { q with lastValid := s.clk.tb.toNat })
  let s := if f.av then s.acknowledge n f.ackSeq else s
  let s := s.creditReturn n f.ck.toNat f.ccnt.toNat
  if f.rnak then s.startReplay n else s

/-- FLIT_RECEIVE (15 R355, R357): a flit that fails its CRC is discarded and RNAK owed, and so is every later one until the replay: those that come before the RNAK has left, and then those out of sequence, an idle one that shows a flit missing among them (DEDUCED, log 92). A good one's slots enter the queue. -/
def execFlitReceive (port : PortId) (bytes : List Byte) (crcOk : Bool) (s : State) : Result :=
  let q := s.fab.ports[port]
  let flit := readFlit bytes
  if !q.inUse || !q.up then .next s
  else if !crcOk then .next (s.modPort port (fun q => { q with rnakOwed := true }))
  else if flit.ft = 2 then
    let s := s.modPort port (fun q => { q with lastValid := s.clk.tb.toNat })
    .next (s.notice port flit.epoch (some flit.seq))
  else if flit.epoch ≠ q.epoch || flit.ft = 3 || q.rnakOwed then .next s
  else if flit.ft = 1 then (if q.rxValid && flit.seq ≠ q.rxSeq then .next s else .next (s.flitHeader port flit))
  else if q.rxValid && flit.seq ≠ q.rxSeq + 1 then .next s
  else
    let s := s.modPort port (fun q => { q with
      rxSeq := flit.seq, rxValid := true, rx := q.rx ++ flit.slots.filter carried, rxNew := q.rxNew ++ flit.slots.filter carried, creditOwed := q.creditOwed + lostCredits flit.slots })
    .next (s.flitHeader port flit)

/-- ACK_TIMEOUT (15 R357): 2 us without an acknowledgement of a sent flit start a replay. -/
def execAckTimeout (port : PortId) (s : State) : Result :=
  let q := s.fab.ports[port]
  if q.up && !q.buffer.isEmpty && q.replaying.isEmpty && q.lastAck + 2000 ≤ s.ns then .next (s.startReplay port) else .next s

/-- EPOCH_NOTICE (15 R358, 11 R276): the notice of the next epoch on a port with traffic resets it; the first notice after a retrain opens the epoch. -/
def execEpochNotice (port : PortId) (s : State) : Result :=
  let q := s.fab.ports[port]
  if !q.inUse || !q.up then .next s
  else .next (s.notice port (if q.rxValid then q.epoch + 1 else q.epoch) none)

/-- LINK_IDLE_TIMEOUT (15 R358): 10 us without a valid flit reset the link. -/
def execLinkIdleTimeout (port : PortId) (s : State) : Result :=
  let q := s.fab.ports[port]
  if q.inUse && q.up && q.lastValid + 10000 ≤ s.ns then .next (s.linkReset port 1) else .next s

/-- LINK_RETRAIN_DONE (15 R354, R358): a port that trains all eight lanes comes up; one that does not stays down. -/
def execLinkRetrainDone (port : PortId) (trained : Bool) (s : State) : Result :=
  let q := s.fab.ports[port]
  if q.inUse && !q.up && trained && !s.clk.refLost && !(3 ≤ s.sec.tap.toNat && s.sec.lcs != 3) then
    .next ((s.modPort port (fun q => { q with up := true, lastValid := s.clk.tb.toNat, lastAck := s.clk.tb.toNat })).raise 10)
  else .next s

/-! ## Sending flits (15 R355, R357, R359) -/

/-- An empty slot. -/
def emptySlot : FabSlot := { hdr := 0, payload := 0 }

/-- Three slots of a flit. -/
def threeSlots (l : List FabSlot) : List FabSlot := (l ++ [emptySlot, emptySlot, emptySlot]).take 3

/-- The credits that the next flit returns: kind, count, and the port after it. -/
def Port.owes (q : Port) : Nat × Nat × Port :=
  if q.creditOwed ≠ 0 then
    let k := min 255 q.creditOwed
    (5, k, { q with creditOwed := q.creditOwed - k })
  else
    match ([0, 1, 2, 3] : List (Fin 4)).find? (fun c => q.reqOwed[c] ≠ 0) with
    | some c =>
      let k := min 255 q.reqOwed[c]
      (c.val + 1, k, { q with reqOwed := q.reqOwed.set c (q.reqOwed[c] - k) })
    | none => (0, 0, q)

/-- A flit with the port's present acknowledgement. -/
def Port.acking (q : Port) (f : Flit) : Flit := { f with epoch := q.epoch, ackSeq := q.rxSeq, av := q.rxValid, rnak := q.rnakOwed }

/-- A flit of a port that the link does not keep: it returns no credits, as a lost one would lose them (DEDUCED, log 92). -/
def Port.plainFlit (q : Port) (ft : BitVec 2) : Flit :=
  q.acking { epoch := 0, seq := q.txSeq, ackSeq := 0, av := false, rnak := false, ft := ft, ck := 0, ccnt := 0, slots := threeSlots [] }

/-- The next normal flit of a port: its slots and the credits it owes. -/
def Port.newFlit (q : Port) (slots : List FabSlot) : Flit :=
  q.acking { epoch := 0, seq := q.txSeq + 1, ackSeq := 0, av := false, rnak := false, ft := 0, ck := BitVec.ofNat 4 q.owes.1
             ccnt := BitVec.ofNat 8 q.owes.2.1, slots := threeSlots slots }

/-- Requests of this die go out onto a link for the first time: their entries at the manager die are free (11 R262). -/
def State.sentOut (s : State) (n : PortId) (l : List FabSlot) : State :=
  l.foldl (fun s x =>
    match s.fab.ports[n].unacked.find? (fun u => isRequest x && u.hdr == (slotMsg x).hdr && u.payload == x.payload) with
    | some u => s.freeEntry u
    | none => s) s

/-- A flit leaves on a port, and the port after it: what has been received is acknowledged. -/
def State.sendFlit (s : State) (n : PortId) (f : Flit) (after : Port → Port) : State :=
  (s.modPort n (fun q => after { q with rnakOwed := false, rxNew := [] })).emit (.flit n (flitBytes f))

/-- FLIT_TRANSMIT (15 R355, R357-R359): the epoch notice first, then a replay of flits as they were sent, with the present acknowledgement; then new slots and the credits owed, as far as slot credits and the buffer of 256 flits allow; else an idle flit. -/
def execFlitTransmit (port : PortId) (s : State) : Result :=
  let q := s.fab.ports[port]
  if !q.inUse || !q.up then .next s
  else if q.noticeOwed then .next (s.sendFlit port (q.plainFlit 2) (fun q => { q with noticeOwed := false }))
  else
    match q.replaying with
    | f :: rest => .next (s.sendFlit port (q.acking f) (fun q => { q with replaying := rest }))
    | [] =>
      let now := q.tx.take (min 3 q.credits)
      if !(now.isEmpty && q.owes.1 = 0) && q.buffer.length < 256 then
        let f := q.newFlit now
        .next ((s.sentOut port now).sendFlit port f (fun o => { q.owes.2.2 with
          rnakOwed := o.rnakOwed, rxNew := o.rxNew, unacked := o.unacked,
          tx := q.tx.drop now.length, txSeq := q.txSeq + 1, credits := q.credits - now.length, buffer := q.buffer ++ [f]
          lastAck := if q.buffer.isEmpty then s.clk.tb.toNat else q.lastAck }))
      else .next (s.sendFlit port (q.plainFlit 1) (fun q => q))

/-! ## Received slots (15 R356, R360) -/

/-- The slot of a type that is next to be handled on a port: none of its channel and class waits before it, or in switched mode its number has come or lies more than 256 places away. -/
def State.nextSlot (s : State) (n : PortId) (type : Nat) : Option (Nat × FabSlot) :=
  let rx := s.fab.ports[n].rx
  (rx.zipIdx.find? (fun e => slotType e.1 == type &&
    (match s.aheadBy e.1 with
     | some d => d == 0 || 256 < d
     | none => !(rx.take e.2).any (fun y => slotCh y == slotCh e.1 && slotCls y == slotCls e.1)))).map (fun e => (e.2, e.1))

/-- A slot too far from its place in its stream is dropped with NAK QFULL to its sender (15 R360). -/
def State.dropSlot (s : State) (n : PortId) (i : Nat) (x : FabSlot) : State :=
  (s.modPort n (fun q => { q with
    rx := q.rx.eraseIdx i, rxNew := q.rxNew.erase x, barred := q.barred.erase x, creditOwed := q.creditOwed + 1 })).nakSlot x 2

/-- The next slot of a type on a port, dropped where it is too far from its place. -/
def State.withSlot (s : State) (port : PortId) (type : Nat) (go : Nat → FabSlot → State) : Result :=
  match s.nextSlot port type with
  | none => .next s
  | some (i, x) => .next (if s.misplaced x then s.dropSlot port i x else go i x)

/-- The request of this die that an answer of another module answers: a reply none that asked for no reply, a NAK first one whose entry is reserved (11 R270). -/
def State.askedFor (s : State) (m : Msg) : Option Asked :=
  let fits : Asked → Bool := fun a => a.req.dmod == m.smod && a.req.dep == m.sep && a.req.smod == m.dmod && a.req.sep == m.dep &&
    a.req.arg == m.arg && a.req.cls == m.cls && !(m.kind == 2 && a.req.nr)
  match s.fab.asked.find? (fun a => fits a && !a.freed) with
  | some a => some a
  | none => s.fab.asked.find? fits

/-- A request from another module reaches this manager die past the weir: its entry, then its core's network or a service. -/
def State.inboundRequest (s : State) (m : Msg) : State :=
  if s.fab.cfg.flow ≠ 0 && 256 ≤ s.mgrFromFab[m.cls] then s.sendSlot m.smod (msgSlot (m.nak 2))
  else
    let s := { s with mgrFromFab := s.mgrFromFab.set m.cls (s.mgrFromFab[m.cls] + 1) }
    match epCore m.dep with
    | some _ => s.sendMsg m
    | none => s.toService m

/-- A NAK for line slots of this module's moves: those moves with slots out to that module end with it. -/
def State.lostLines (s : State) (m : Msg) : State :=
  (s.services.filter (fun v => v.sent && v.req.cls == m.cls && (match s.movePart v with | some x => x.mod == m.smod | none => false))).foldl
    (fun s v => s.failService v m.hnd) s

/-- An answer from another module goes to its requester, or nowhere if none waits for it; a NAK for a line slot to the move that sent it. -/
def State.inboundAnswer (s : State) (m : Msg) : State :=
  if m.dep = 64 then (if m.arg = 2 || m.arg = 3 then s.lostLines m else s)
  else match s.askedFor m with
    | none => s
    | some a => { s with fab := { s.fab with asked := s.fab.asked.erase a } }.toAsker a m

/-- A message that the weir refuses on its way in (13 R324). -/
def State.inboundRefused (s : State) (m : Msg) : State :=
  if m.kind = 1 then (s.returnCredit m).sendSlot m.smod (msgSlot (m.nak 6))
  else s.inboundAnswer { m with hdr := mkHdr 3 false m.cls.val m.dmod m.dep m.smod m.sep 6 m.arg, payload := 0 }

/-- The slot at a port meets the weir: handled when it is admitted or refused. -/
def State.weighed (s : State) (act : Option Nat) (port : PortId) (go no : State → State) : State :=
  match act with
  | none => go s
  | some n =>
    match s.meterSlot n port with
    | (.admitted, s) => go s
    | (.waits, s) => s
    | (.refused, s) => no s

/-- A message for another module goes on along its route; the credit of a request will come back the same way (15 R359). -/
def State.passOn (s : State) (port : PortId) (x : FabSlot) : State :=
  let m := slotMsg x
  match s.toward m.dmod with
  | some n => s.modPort n (fun q => { q with
      tx := q.tx ++ [x], through := if isRequest x then q.through ++ [(m.dmod * 4 + m.cls.val, some port)] else q.through })
  | none => s

/-- SLOT_MESSAGE (15 R356, R359, R360; 11 R262, R271, R275): a message slot is forwarded on its route, or metered into this die as a request or an answer; a request to a partition that has been reset since finds its receiver closed. -/
def execSlotMessage (port : PortId) (s : State) : Result :=
  s.withSlot port 1 (fun i x =>
    let m := slotMsg x
    if m.dmod ≠ s.fab.cfg.modid.toNat then (s.popSlot port i x).passOn port x
    else if s.fab.ports[port].barred.contains x then ((s.popSlot port i x).returnCredit m).sendSlot m.smod (msgSlot (m.nak 1))
    else
      s.weighed (((epCore m.dep).bind s.partOf).map entering) port
        (fun s => let s := s.popSlot port i x; if m.kind = 1 then s.inboundRequest m else s.inboundAnswer m)
        (fun s => (s.popSlot port i x).inboundRefused m))

/-- Whether a registered owner table of this module with a version gives it the line at an address (09 R238). A line slot names no TID: any table with its VER that gives the line to this module will do (DESIGN CHOICE, log 27). -/
def State.ownsLine (s : State) (ver a : Nat) : Bool :=
  s.asz.owners.any (fun t => ownerVer t == ver && (t.drop 4).any (fun e =>
    fld e 123 112 = s.fab.cfg.modid.toNat && fld e 111 64 ≤ a && a < fld e 111 64 + 64 * fld e 63 40))

/-- A line slot: a NAK at once where its version is stale (STALE) or the weir refuses it (BADREQ), else moved in an idle slot that the message unit leaves, of the weight of its activity (09 R238; 04 R84; 11 R277). -/
def lineSlot (port : PortId) (type : Nat) (act : PartId → Nat) (free : State → Nat → Bool) (move : State → Nat → Line → State) (s : State) : Result :=
  s.withSlot port type (fun i x =>
    let a := slotAddr x % 2 ^ 48
    let no := fun (stat : Nat) (s : State) => (s.popSlot port i x).nakSlot x stat
    if !s.ownsLine (slotVer x) a then no 4 s
    else if s.fab.d2dTraining || !free s a then s
    else s.weighed ((s.partAt a).map act) port (fun s => move (s.popSlot port i x) a x.payload) (no 6))

/-- SLOT_LINE_WRITE (15 R356, 09 R238): a line of an owner-table move is written, in an idle slot, if the table's version is the registered one. -/
def execSlotLineWrite (port : PortId) (s : State) : Result :=
  lineSlot port 2 entering (fun s a => s.writeFree a && !s.handlerWantsLine a) (fun s a l => s.softWrite a 3 0xFF l) s

/-- SLOT_LINE_READ (15 R356, 09 R238): a line of an owner-table move is read, in an idle slot, for another module. -/
def execSlotLineRead (port : PortId) (ecc : EccResult) (s : State) : Result :=
  lineSlot port 3 leaving (fun s a => s.readFree a && !s.handlerWantsLine a) (fun s a _ => let r := s.softRead a ecc; r.2.emit (.fabricLine port r.1)) s

/-- SLOT_BARRIER_ARRIVAL (10 R256, 13 R323): the manager module counts a module's arrival; another module passes it on towards it. -/
def execSlotBarrierArrival (port : PortId) (s : State) : Result :=
  s.withSlot port 4 (fun i x => (s.popSlot port i x).spanForward (barPart x) (barId x) (barCommit x) (barToken x))

/-- SLOT_BARRIER_COMPLETION (10 R256): a completion is delivered to the die root, commit or abort, once the die-to-die link carries it (17 R386). -/
def execSlotBarrierCompletion (port : PortId) (s : State) : Result :=
  s.withSlot port 5 (fun i x => if s.fab.d2dTraining then s else (s.popSlot port i x).spanDeliver (barPart x) (barId x) (barCommit x))

/-! ## Time alignment (15 R362, 12 R298) -/

/-- A stamp as a signed number. -/
def stampInt (w : BitVec 64) : Int := w.toInt

/-- The offset of an exchange: ((t2 - t1) - (t4 - t3) - CORR) / 2. -/
def exchangeOffset (x : TimeStamps) : Int :=
  ((stampInt x.t2 - stampInt x.t1) - (stampInt x.t4 - stampInt x.t3) - stampInt x.corr) / 2

/-- An exchange ends: the first after a load sets FAB_TBOFS, a later one is slewed and recorded above 100 ns. -/
def State.applyOffset (s : State) (x : TimeStamps) : State :=
  let o := exchangeOffset x
  let s := { s with fab := { s.fab with stamps := some x } }
  if !s.fab.tbAligned then { s with fab := { s.fab with tbOfs := BitVec.ofInt 64 o, tbAligned := true } }
  else
    let s := { s with clk := { s.clk with adj := BitVec.ofInt 32 o } }
    if 100 < o.natAbs then s.event 0x502 3 none none (leBytes 8 (BitVec.ofInt 64 o).toNat) else s

/-- The stamps that an answer brings. -/
def slotStamps (x : FabSlot) : TimeStamps :=
  { t1 := BitVec.ofNat 64 (payField x.payload 0 8), t2 := BitVec.ofNat 64 (payField x.payload 8 8), t3 := BitVec.ofNat 64 (slotAddr x),
    t4 := 0, corr := BitVec.ofNat 64 (payField x.payload 16 8) }

/-- Fabric time (15 R362). -/
def State.fabricTime (s : State) : BitVec 64 := s.clk.tb + s.fab.tbOfs

/-- SLOT_TIME (15 R362): the manager module answers with its stamps; the worker that asked ends its exchange; another module passes the slot on. -/
def execSlotTime (port : PortId) (s : State) : Result :=
  s.withSlot port 6 (fun i x =>
    let s := s.popSlot port i x
    if s.fab.cfg.role = 1 && !slotBack x then
      s.sendSlot (slotAsker x) (timeSlot s.clk.tb.toNat (slotAddr x) s.clk.tb.toNat (payField x.payload 16 8) (slotAsker x) true)
    else if s.fab.cfg.role ≠ 2 then s
    else if !slotBack x then (match s.toward s.fab.cfg.mgrid.toNat with | some n => s.modPort n (fun q => { q with tx := q.tx ++ [x] }) | none => s)
    else if slotAsker x = s.fab.cfg.modid.toNat then s.applyOffset { slotStamps x with t4 := s.fabricTime }
    else (match s.toward (slotAsker x) with | some n => s.modPort n (fun q => { q with tx := q.tx ++ [x] }) | none => s))

/-- TIME_EXCHANGE (15 R362): a worker's two-way exchange with the manager module. -/
def execTimeExchange (ex : TimeStamps) (s : State) : Result := if s.fab.cfg.role = 2 then .next (s.applyOffset ex) else .next s

/-- TIME_BASE_SYNC (12 R296): the master sends its count to the die root every 1,024 ns. -/
def execTimeBaseSync (s : State) : Result :=
  if s.clk.tb.toNat % 1024 = 0 then .next { s with clk := { s.clk with rootCopy := s.clk.tb } } else .next s

/-! ## Management commands (15 R361) -/

/-- A worker reads an image from its manager module with line reads. -/
def State.askImage (s : State) (cmd : ManagementCommand) : State :=
  if s.asz.busy then s
  else (linesFrom cmd.addr.toNat ((cmd.img.len + 63) / 64)).foldl (fun s a =>
    s.sendSlot s.fab.cfg.mgrid.toNat (mkSlot 3 2 0 0 (s.fab.cfg.modid.toNat * 2 ^ 48 + a) 0)) s

/-- SLOT_MANAGEMENT_COMMAND (15 R361): a worker runs a command of its manager module. -/
def execSlotManagementCommand (port : PortId) (cmd : ManagementCommand) (s : State) : Result :=
  s.withSlot port 7 (fun i x =>
    let s := s.popSlot port i x
    if s.fab.cfg.role ≠ 2 then s
    else match cmd.cmd.toNat with
      | 1 => (s.askImage cmd).loadCmd .fabric cmd.img cmd.pmask
      | 2 => s.releaseCmd .fabric cmd.pmask
      | 3 => s.stopCmd .fabric cmd.pmask
      | 4 => (s.askImage cmd).armCmd .fabric cmd.img cmd.pmask
      | 5 => s.cancelCmd .fabric cmd.pmask
      | _ => s)

/-! ## The die-to-die link (17 R386) -/

/-- Requests in flight across the link are answered NAK EPOCH (11 R276). -/
def State.d2dLost (s : State) : State :=
  let lost := s.net.filter (fun m => m.kind = 1 && s.crosses m)
  lost.foldl (fun s m => s.turnAway m 3) { s with net := s.net.filter (fun m => !(m.kind = 1 && s.crosses m)) }

/-- How often a flit of the die-to-die link has been replayed. -/
def FabricState.d2dCount (f : FabricState) (x : D2dFlit) : Nat :=
  match f.d2dReplays.find? (fun e => e.1 == x.down && e.2.1 == x.num) with | some e => e.2.2 | none => 0

/-- The replays of the other flits. -/
def FabricState.d2dOthers (f : FabricState) (x : D2dFlit) : List (Bool × Nat × Nat) :=
  f.d2dReplays.filter (fun e => !(e.1 == x.down && e.2.1 == x.num))

/-- D2D_FLIT_RECEIVE (17 R386): a failing flit is replayed; the fourth replay of one flit retrains the link and advances its epoch. -/
def execD2dFlitReceive (flit : D2dFlit) (s : State) : Result :=
  let rest := s.fab.d2dOthers flit
  let n := s.fab.d2dCount flit + 1
  if s.fab.d2dTraining then .next s
  else if flit.crcOk then .next { s with fab := { s.fab with d2dReplays := rest } }
  else
    let s := { s with fab := { s.fab with d2dRetries := satAdd s.fab.d2dRetries 1, d2dReplays := (flit.down, flit.num, n) :: rest } }
    if n < 4 then .next s
    else
      let e := s.fab.d2dEpoch + 1
      let s := { s with fab := { s.fab with d2dEpoch := e, d2dResets := satAdd s.fab.d2dResets 1, d2dReplays := [], d2dTraining := true } }
      .next (s.d2dLost.event 0x503 5 none none (leBytes 1 e.toNat))

/-- D2D_RETRAIN_DONE (17 R386): the link carries flits again; the stops, partition resets and the command in flight are reissued and take effect once, and accesses of the manager die go on. -/
def execD2dRetrainDone (s : State) : Result :=
  .next ((({ s with fab := { s.fab with d2dTraining := false } }.waitedStops.waitedResets).resumeCmd).serveSoft false)

end Sys2Proof.Machine
end

