-- ==== Sys2Proof/Machine/Record.lean ====
section
/-! DEFINITION. Record.lean: the modes of record and replay and the record region (12 R300-R303), and the meanings of their commands. -/

namespace Sys2Proof.Machine

/-- A control-plane write refused under R24: an error completion to its requester, and a record of the register's address and the requester. -/
def State.ctrlRefused (s : State) (req : Requester) (addr : Nat) (p : Option PartId) (c : Option CoreId) : State :=
  (s.event 0x103 3 p c (leBytes 8 addr ++ leBytes 1 (match req with | .host => 0 | .fabric => 1 | .mctp => 2))).errorTo req

/-- The selected partition, or the one a write names, runs or stands halted (12 R300). -/
def State.rrBusy (s : State) (p : PartId) : Bool := s.busyPart p || (s.rr.mode != 0 && s.busyPart s.rr.part)

/-- A write of MGR_RR_CTL (12 R300, R303). -/
def State.rrCtl (s : State) (req : Requester) (p : PartId) (mode : Nat) : State :=
  if s.rrBusy p then s.ctrlRefused req 0x40100 (some p) none
  else if mode = 3 || (mode ≠ 0 && s.rr.rrCnt = 0) then s.errorTo req
  else
    let r := { s.rr with part := p, mode := BitVec.ofNat 2 mode }
    { s with rr :=
        if mode = 1 then { r with
          lost := 0, incomplete := false, diverged := false, bytes := 0, staged := [], stopped := false, region := [], cursor := 0,
          seqPos := 0, seqNo := 0 }
        else if mode = 2 then { r with diverged := false, div := 0 }
        else r }

/-- A write of MGR_RR_CTL by a requester that reaches the part. -/
def State.rrMode (s : State) (req : Requester) (p : PartId) (mode : Nat) : State := if s.reaches req then s.rrCtl req p mode else s

/-- RR_MODE_OFF (12 R300, R303): record and replay are off; no field of MGR_RR_STAT changes. -/
def execRrModeOff (req : Requester) (p : PartId) (s : State) : Result := .next (s.rrMode req p 0)

/-- RR_MODE_RECORD (12 R303): recording is selected and MGR_RR_STAT cleared. -/
def execRrModeRecord (req : Requester) (p : PartId) (s : State) : Result := .next (s.rrMode req p 1)

/-- RR_MODE_REPLAY (12 R303): replay is selected; DIVERGED and MGR_RR_DIV are cleared. -/
def execRrModeReplay (req : Requester) (p : PartId) (s : State) : Result := .next (s.rrMode req p 2)

/-- Bytes of the record region (12 R300). -/
def State.regionBytes (s : State) : Nat := s.rr.rrCnt.toNat * s.grade.bandBytes

/-- Bytes written into a span of memory, whole lines at a time. -/
def State.writeBytes (s : State) (a : Nat) (bytes : List Byte) : State :=
  (linesFrom (spanLines a bytes.length).1 (spanLines a bytes.length).2).foldl (fun s l =>
    let x := lineShare a bytes l
    s.writeNow l (mergeLine (s.lineNow l) x.1 x.2)) s

/-- Device address of the end of the records written so far: from the base of the region's first band on (12 R301). -/
def State.recordEnd (s : State) : Nat := hbmBase + s.rr.rrBase.toNat * s.grade.bandBytes + s.rr.bytes.toNat

/-- RECORD_STAGING_WRITE (12 R303): the oldest staged record is written to the region; when it does not fit, recording stops incomplete. -/
def execRecordStagingWrite (s : State) : Result :=
  match s.rr.staged with
  | [] => .next s
  | r :: rest =>
    if s.rr.bytes.toNat + r.length ≤ s.regionBytes then
      let s := s.writeBytes s.recordEnd r
      .next { s with rr := { s.rr with staged := rest, region := s.rr.region ++ [r], bytes := s.rr.bytes + BitVec.ofNat 38 r.length } }
    else
      let s := { s with rr := { s.rr with staged := [], stopped := true, lost := satAdd s.rr.lost rest.length } }
      .next (s.rrIncomplete 1)

end Sys2Proof.Machine
end

