-- ==== Sys2Proof/Machine/Events.lean ====
section
/-! DEFINITION. Events.lean: the event recorder as software sees it (17 R385, R387-R397), and the meanings of its commands. -/

namespace Sys2Proof.Machine

/-! ## Records as slots (17 R388, R389) -/

/-- A record as the 256 bytes of its slot. -/
def EventRecord.slot (r : EventRecord) : List Byte :=
  let b := leBytes 1 (24 + r.body.length) ++ leBytes 2 r.type.toNat ++ leBytes 1 r.sev.val ++ leBytes 2 r.src.toNat ++
    leBytes 2 r.rep.toNat ++ leBytes 8 r.tFirst.toNat ++ leBytes 8 r.tLast.toNat ++ leBytes 8 r.fabOfs.toNat ++ r.body
  (b ++ List.replicate (256 - b.length) 0).take 256

/-- The stored record with the smallest SEQ at or above a value (17 R394). -/
def EventStore.atOrAbove (e : EventStore) (seq : BitVec 48) : Option EventRecord :=
  (e.store.filter (fun r => seq.toNat ≤ r.seq.toNat)).foldl (fun b r => match b with
    | none => some r
    | some x => if r.seq.toNat < x.seq.toNat then some r else b) none

/-! ## Durability and interrupts (17 R387, R397) -/

/-- EVENT_RECORD_DURABLE (17 R387, R397): 10 us after its detection an occurrence is durable: vector 8 for severity 5 or more, a halt's partition vector once all its records are; resets that waited for them start. -/
def execEventRecordDurable (s : State) : Result :=
  match s.ev.undurable with
  | [] => .next s
  | d :: rest =>
    if d.detected + 10000 ≤ s.ns then
      let s := { s with ev := { s.ev with undurable := rest } }
      let s := if 5 ≤ d.sev.val then s.raise 8 else s
      let s := match d.part with
        | some p => if rest.any (fun x => x.part == some p) then s else s.raise p.val
        | none => s
      .next s.waitedResets
    else .next s

/-! ## Corrected errors (17 R385) -/

/-- The increase of a counter since the previous comparison; a saturated one contributes none. -/
def increase {n : Nat} (now last : BitVec n) : Nat := if now = BitVec.allOnes n then 0 else now.toNat - last.toNat

/-- CE_SUMMARY_CHECK (17 R385): at every 1,000,000 ns, one record with the increases if any count rose. -/
def execCeSummaryCheck (s : State) : Result :=
  if s.clk.tb.toNat % 1000000 ≠ 0 then .next s
  else
    let slice := fun (c : CoreId) => increase (s.core c).cfg.ce (s.core c).cfg.lastCe
    let tile := fun (c : CoreId) => increase (s.core c).cfg.tileCe (s.core c).cfg.lastTileCe
    let stack := fun (k : Fin 6) => increase s.hbm[k].ce s.hbm[k].lastCe
    let rose := allCores.filter (fun c => slice c + tile c ≠ 0)
    let ks : List (Fin 6) := [0, 1, 2, 3, 4, 5]
    let any := !rose.isEmpty || ks.any (fun k => stack k ≠ 0)
    let s' := allCores.foldl (fun s c => s.modCfg c (fun g => { g with lastCe := g.ce, lastTileCe := g.tileCe })) s
    let s' := { s' with hbm := s'.hbm.map (fun k => { k with lastCe := k.ce }) }
    if any then
      .next (s'.event 0x203 0 none none
        (leBytes 8 (rose.map (fun c => 2 ^ c.val)).sum ++ leBytes 8 (allCores.map slice).sum ++ leBytes 8 (allCores.map tile).sum ++
          ks.flatMap (fun k => leBytes 4 (stack k))))
    else .next s'

/-! ## Reading and clearing (17 R394-R396) -/

/-- A write of EVR_RDSEQ: one that covers bits 47:32 latches a record. -/
def State.evrRdseq (s : State) (off size : Nat) (value : BitVec 64) : State :=
  let old := s.ev.rdSeq
  let new : Option (BitVec 48 × Bool) :=
    if size = 8 && off % 8 = 0 then some (value.extractLsb' 0 48, true)
    else if size = 4 && off % 8 = 4 then some (value.extractLsb' 0 16 ++ old.extractLsb' 0 32, true)
    else if size = 4 && off % 8 = 0 then some (old.extractLsb' 32 16 ++ value.extractLsb' 0 32, false)
    else none
  match new with
  | none => s
  | some (v, latch) => { s with ev := { s.ev with rdSeq := v, latched := if latch then s.ev.atOrAbove v else s.ev.latched } }

/-- EVR_RDSEQ_WRITE (17 R394). -/
def execEvrRdseqWrite (off : BitVec 26) (size : Nat) (value : BitVec 64) (s : State) : Result :=
  if s.hostUp && off.toNat / 8 * 8 = 0x800018 then .next (s.evrRdseq off.toNat size value) else .next s

/-- An answer to a management command. -/
def State.answer (s : State) (accepted : Bool) (data : List Byte) : State := s.emit (.mgmt accepted data)

/-- A command that claims a secured session is in one only while its session keys live (16 R378). -/
def State.secured (s : State) (sec : Bool) : Bool := sec && s.sec.sessionKeys && !s.sec.bootFail

/-- EVR_READ (17 R395): within a secured session, FOUND, the SEQ and the slot; the latch stays. -/
def execEvrRead (sec : Bool) (seq : BitVec 48) (s : State) : Result :=
  if !s.mgrUp then .next s
  else if !s.secured sec then .next (s.answer false [])
  else match s.ev.atOrAbove seq with
    | some r => .next (s.answer true (leBytes 1 1 ++ leBytes 6 r.seq.toNat ++ r.slot))
    | none => .next (s.answer true (leBytes 1 0 ++ leBytes 6 0 ++ List.replicate 256 0))

/-- The severities. -/
def allSev : List (Fin 8) := [0, 1, 2, 3, 4, 5, 6, 7]

/-- Whether a token authorises a command (16 R375, 17 R396): it verifies, names this device and the session's nonce, and is signed with the key that matches the assize verification key, which must then be readable, or chains to the Nerile root key, as far as the command takes each. -/
def State.permits (s : State) (t : Token) (assize root : Bool) : Bool :=
  t.verifies && t.device == s.sec.device && t.nonce == s.sec.nonce &&
  (match t.key with
   | .assize => assize && s.keyReadable
   | .root => root
   | .unknown => false)

/-- Whether an EVR_CLEAR is well formed: its payload holds 2 B reserved, 2 B token length and the token, which is not empty (17 R396). -/
def clearFormed (payload : List Byte) : Bool :=
  let tl := leNat ((payload.drop 2).take 2)
  payload.length == 4 + tl && tl != 0 && leNat (payload.take 2) == 0

/-- EVR_CLEAR (17 R396): an accepted clear erases every record and lost count and creates its own record; a refused one creates EVR_CLEAR_REFUSED. -/
def execEvrClear (sec : Bool) (payload : List Byte) (token : Token) (s : State) : Result :=
  if !s.mgrUp then .next s
  else if !s.secured sec then .next (s.answer false [])
  else if !clearFormed payload then .next ((s.event 0x702 4 none none (leBytes 1 1)).answer false [])
  else if !s.permits token true true then .next ((s.event 0x702 4 none none (leBytes 1 0)).answer false [])
  else
    let body := allSev.flatMap (fun k => leBytes 2 (s.ev.store.filter (fun r => r.sev == k)).length) ++
      allSev.flatMap (fun k => leBytes 2 s.ev.lost[k].toNat)
    let s := { s with ev := { s.ev with store := [], lost := .replicate 8 0 } }
    .next ((s.event 0x701 7 none none body).answer true [])

end Sys2Proof.Machine
end

