-- ==== Sys2Proof/Machine/Clock.lean ====
section
/-! DEFINITION. Clock.lean: the compute oscillator, deliberate frequency changes, the reference and the time base (12 R283-R298), and the meanings of their commands. -/

namespace Sys2Proof.Machine

/-! ## Deliberate changes (12 R291-R293) -/

/-- One 25 MHz step of a change towards its target, 16 c before the next; the change ends with its last step, after which the core rail of a fall is lowered. -/
def State.rampStep (s : State) (k : FreqChange) : State :=
  let f := s.clk.setMhz
  let f' := if f < k.target then min k.target (f + 25) else max k.target (f - 25)
  let s := s.moveTo f'
  if f' = k.target then { s with clk := { s.clk with change := none, endedAt := some s.ns } }.coreRail k.target
  else { s with clk := { s.clk with change := some { k with started := true, nextStep := k.nextStep + 16 } } }

/-- RAIL_SETTLE_CHECK (12 R292): 1,024 c before a rise the core rail stands at the target's voltage, or, not settled, moves N later by 8,192 c. -/
def execRailSettleCheck (settled : Bool) (s : State) : Result :=
  match s.clk.change with
  | some k =>
    if !k.started && !k.settled && s.clk.cycle.toNat + 1024 = k.n then
      if settled then .next ({ s with clk := { s.clk with change := some { k with settled := true } } }.coreRail k.target)
      else .next { s with clk := { s.clk with change := some { k with n := k.n + 8192, nextStep := k.n + 8192 } } }
    else .next s
  | none => .next s

/-- FREQ_CHANGE_START (12 R291-R293): at oscillator cycle N the change starts with its first step and its record. -/
def execFreqChangeStart (s : State) : Result :=
  match s.clk.change with
  | some k =>
    if !k.started && k.settled && k.n = s.clk.cycle.toNat && s.clk.running then
      let s := { s with clk := { s.clk with target := BitVec.ofNat 12 k.target } }
      .next ((s.event 0x401 1 none none
        (leBytes 8 k.n ++ leBytes 2 k.old ++ leBytes 2 k.target ++ leBytes 4 0 ++ leBytes 8 s.clk.sample.toNat)).rampStep k)
    else .next s
  | none => .next s

/-- FREQ_RAMP_STEP (12 R292): every 16 c the set point moves 25 MHz towards the target. -/
def execFreqRampStep (s : State) : Result :=
  match s.clk.change with
  | some k => if k.started && k.nextStep = s.clk.cycle.toNat && s.clk.running then .next (s.rampStep k) else .next s
  | none => .next s

/-- CHANGE_SPACING_END (12 R292): 50 us after a change ended, the last request made in the meantime is applied. -/
def execChangeSpacingEnd (s : State) : Result :=
  match s.clk.deferred, s.clk.endedAt with
  | some t, some e =>
    if s.clk.change.isNone && e + 50000 ≤ s.ns then
      let s := { s with clk := { s.clk with deferred := none } }
      .next (if t = s.clk.setMhz then s else s.requestChange t)
    else .next s
  | _, _ => .next s

/-! ## Droop (12 R286-R288) -/

/-- DROOP_RESPONSE (12 R286, R288): a droop excursion, below 0.98 of the set point, is counted with its lowest frequency in 1/1,024, rounded up. -/
def execDroopResponse (lowest : BitVec 10) (s : State) : Result :=
  if s.clk.running && lowest.toNat ≤ 1004 then
    .next { s with clk := { s.clk with
      excur := satAdd s.clk.excur 1, lowest := if lowest < s.clk.lowest then lowest else s.clk.lowest } }
  else .next s

/-- PWR_OSC_STAT CLR (12 R288). -/
def State.oscClear (s : State) : State := { s with clk := { s.clk with excur := 0, lowest := 0x3FF } }

/-- Whether a write of a 64-bit register at an offset covers its high half, and the value it gives to that half. -/
def highHalf (off size : Nat) (value : BitVec 64) : Option (BitVec 32) :=
  if size = 8 && off % 8 = 0 then some (value.extractLsb' 32 32)
  else if size = 4 && off % 8 = 4 then some (value.extractLsb' 0 32)
  else none

/-- OSC_STAT_CLEAR (12 R288): writing CLR, bit 37, sets EXCUR to 0 and LOWEST to 0x3FF. -/
def execOscStatClear (off : BitVec 26) (size : Nat) (value : BitVec 64) (s : State) : Result :=
  if s.hostUp && off.toNat / 8 * 8 = 0x30100 then
    match highHalf off.toNat size value with
    | some h => .next (if bit h 5 then s.oscClear else s)
    | none => .next s
  else .next s

/-- CORE_UV (12 R287): while the oscillator runs, in a boot too: it stops, every partition is lost, a record and the vectors of the released partitions, then a warm reset. -/
def execCoreUv (s : State) : Result :=
  if s.pow.state == .on && s.clk.running then
    .next ((s.event 0x402 6 none none (leBytes 8 s.clk.cycle.toNat)).enterWarm 4)
  else .next s

/-! ## The reference (12 R283) -/

/-- REFCLK_OUT_OF_TOLERANCE (12 R283): REFBAD and a record; the part keeps running. -/
def execRefclkOutOfTolerance (s : State) : Result :=
  if s.mgrUp then .next ({ s with clk := { s.clk with refBad := true }, justSet := .refBad :: s.justSet }.event 0x40A 4 none none []) else .next s

/-- REFCLK_LOSS (12 R283; 15 R358): the PLLs hold over, REFLOSS and a record, the host and fabric links drop. -/
def execRefclkLoss (s : State) : Result :=
  if s.mgrUp && !s.clk.refLost then
    let s := { s with clk := { s.clk with refLoss := true, refLost := true }, justSet := .refLoss :: s.justSet, host := { s.host with linkUp := false } }
    .next ((s.event 0x40B 6 none none []).linksReset 3)
  else .next s

/-- The host link may be up: a reference, a powered part, no TAP instruction that drives the pins. -/
def State.mayLink (s : State) : Bool := s.pow.state == .on && !s.clk.refLost && (s.sec.tap.toNat < 3 || s.sec.lcs == 3)

/-- REFCLK_RETURN (12 R283): the PLLs relock; the host link retrains, the fabric ports as LINK_RETRAIN_DONE says. -/
def execRefclkReturn (s : State) : Result :=
  if s.clk.refLost then
    let s := { s with clk := { s.clk with refLost := false } }
    .next { s with host := { s.host with linkUp := s.mayLink } }
  else .next s

/-! ## Stretched cycles and the time base (12 R294, R295, R298) -/

/-- STRETCHED_CYCLE (12 R294): counted for the message network or the manager die. -/
def execStretchedCycle (network : Bool) (s : State) : Result :=
  if !s.mgrUp then .next s
  else if network then .next { s with clk := { s.clk with stretchNet := satAdd s.clk.stretchNet 1 } }
  else .next { s with clk := { s.clk with stretchMgr := satAdd s.clk.stretchMgr 1 } }

/-- The count after one tick: while a correction is owed, one tick is added after each 1,000, or one of each 1,000 is omitted; no count is skipped. -/
def ClockUnit.tick (k : ClockUnit) : ClockUnit :=
  if k.adj.toInt < 0 && 999 ≤ k.sinceSlew then { k with adj := k.adj + 1, sinceSlew := 0 }
  else if 0 < k.adj.toInt && 1000 ≤ k.sinceSlew then { k with tb := k.tb + 1, adj := k.adj - 1, sinceSlew := 0 }
  else { k with tb := k.tb + 1, sinceSlew := k.sinceSlew + 1 }

/-- Every 1 ms a worker starts an exchange: a time slot with its send stamp goes to the manager module (15 R362; the count at which it does DESIGN CHOICE, log 97). -/
def State.askTime (s : State) : State :=
  if s.fab.cfg.role = 2 && s.clk.tb.toNat % 1000000 = 0 then
    let t1 := s.fabricTime.toNat
    s.sendSlot s.fab.cfg.mgrid.toNat (timeSlot t1 t1 0 0 s.fab.cfg.modid.toNat false)
  else s

/-- TIME_BASE_TICK (12 R295, R298): one tick; a release refresh whose time has come begins (08 R214), a worker's exchange starts (15 R362). A tick that is omitted starts none. -/
def execTimeBaseTick (s : State) : Result :=
  let t := allParts.foldl (fun s p => s.startRelease p) { s with clk := s.clk.tick, justSet := [] }
  .next (if t.clk.tb = s.clk.tb then t else t.askTime)

/-- TB_COUNT_LO_READ (12 R298): the low half of the count; the high half is latched into the shadow. An 8 B read returns both. -/
def execTbCountLoRead (size : Nat) (s : State) : Result :=
  if !s.hostUp then .next s
  else if size = 4 || size = 8 then
    let hi := s.clk.tb.extractLsb' 32 32
    .next ({ s with clk := { s.clk with shadow := hi } }.emit (.readData (some
      (leBytes 4 (s.clk.tb.toNat % 2 ^ 32) ++ (if size = 8 then leBytes 4 hi.toNat else [])))))
  else .next (s.emit (.readData none))

end Sys2Proof.Machine
end

