-- ==== Sys2Proof/Machine/Power.lean ====
section
/-! DEFINITION. Power.lean: the 48 V input, cold boot, envelope control, temperatures and calibration (14 R328-R339; 16 R366, R371; 18 R412), and the meanings of their commands. -/

namespace Sys2Proof.Machine

/-! ## PWR_STAT (14 R337) -/

/-- PWR_STAT. -/
def PowerUnit.stat (u : PowerUnit) : Nat :=
  u.cls.toNat * 2 ^ 10 + u.calBad.toNat * 2 ^ 9 + u.thermCrit.toNat * 2 ^ 8 + u.pwrFail.toNat * 2 ^ 7 + u.overP.toNat * 2 ^ 6 +
    u.vinHigh.toNat * 2 ^ 5 + u.vinLow.toNat * 2 ^ 4

/-- The power unit changed; a changed PWR_STAT raises vector 9 (15 R348). -/
def State.modPow (s : State) (f : PowerUnit → PowerUnit) : State :=
  let s' := { s with pow := f s.pow }
  if s'.pow.stat = s.pow.stat then s' else s'.raise 9

/-! ## Cold boot (14 R330, 16 R371) -/

/-- The firmware bank that runs: an accepted update becomes active at a cold reset; a bank that fails verification gives way to the other; none where both fail (15 R364, 16 R371). -/
def SecurityUnit.boot (u : SecurityUnit) (ok : Bool × Bool) : SecurityUnit :=
  let u := match u.fwPending with
    | some f => { u with bank := !u.bank, fwVersion := f.version, fwOther := u.fwVersion, fwPending := none }
    | none => u
  if ok.1 then u
  else if ok.2 then { u with bank := !u.bank, fwVersion := u.fwOther, fwOther := u.fwVersion }
  else { u with bootFail := true }

/-- The security block as a cold boot starts: session keys are lost, TRIG is 0 (16 R377, R382). -/
def SecurityUnit.cold (u : SecurityUnit) (cause : BitVec 4) : SecurityUnit :=
  { SecurityUnit.reset with
    lcs := u.lcs, reprov := u.reprov, aik := u.aik, storageKey := u.storageKey, verifyKey := u.verifyKey, assizeKey := u.assizeKey, device := u.device, policy := u.policy
    storageArmed := u.storageArmed, storageTripped := u.storageTripped
    alarms := u.alarms, cause := cause, bank := u.bank, fwVersion := u.fwVersion, fwOther := u.fwOther, fwPending := u.fwPending
    fwMin := u.fwMin }

/-- The rails in the order in which they come up (14 R330). -/
def riseOrder : List (Fin 8) := [5, 6, 7, 2, 3, 4, 1, 0]

/-- Standby: only the manager die is powered (00 R6); other rails go off in reverse order (14 R330). -/
def State.standby (s : State) : State :=
  { s with
    pow := { s.pow with state := .standby, pwrGood := false }
    clk := { s.clk with running := false }
    host := { s.host with linkUp := false } }.railsOff (riseOrder.reverse.filter (fun r => r != 5))

/-- The storage indicator as a power-up finds it: tripped before, or since, while it was armed (18 R414). -/
def SecurityUnit.stored (u : SecurityUnit) (b : BootFindings) : SecurityUnit :=
  { u with storageTripped := u.storageTripped || (u.storageArmed && b.storageTripped) }

/-- What the check of R371 finds raises its triggers in ascending order; a trip of the storage indicator is reset once its alarm is taken, and the indicator is held disarmed until MGR falls (16 R379, R390; 18 R414). -/
def State.bootChecks (s : State) (b : BootFindings) : State :=
  let s := { s with sec := { s.sec with tamperOpen := b.tamperOpen, tamperArmed := !b.tamperOpen } }
  let s := if b.tamperOpen then s.alarm 0 else s
  let s := if s.sec.storageTripped then s.alarm 4 else s
  { s with sec := { s.sec with storageTripped := false, storageArmed := false } }

/-- A cold boot is bringing up the rails. -/
def State.booting (s : State) : Bool := s.pow.state == .on && s.sec.phase == .cold && !s.pow.pwrGood && !s.sec.bootFail

/-- All rails are in regulation: PWR_GOOD, the oscillator starts at its alignment set point, and the crossings are aligned (14 R330; 12 R290; 02 R30). -/
def State.powerGood (s : State) : State :=
  let s' := { s with pow := { s.pow with pwrGood := true, align := none }, clk := { s.clk with running := true } }
  match s.pow.align with
  | none => s'
  | some f =>
    { s' with sec := { s.sec with alignFail := true }, clk := { s.clk with running := false } }.event 0x104 6 none none
      (leBytes 2 f.core.val ++ leBytes 1 f.side.val)

/-- The rail whose turn it is in a cold boot (14 R330). -/
def State.railTurn (s : State) : Option (Fin 8) := riseOrder.find? (fun r => s.pow.rails[r] == 0)

/-- The next rail of a cold boot comes up; after the last, PWR_GOOD. -/
def State.bootStep (s : State) : State :=
  match s.railTurn with
  | some r => s.setRail r (railVolts r)
  | none => s.powerGood

/-- A cold boot up to the rails that follow MGR: firmware, security checks, straps and calibration set. The stored set is good if it is so by itself and the flash gives it back (14 R338). -/
def State.coldBoot (s : State) (b : BootFindings) (cause : BitVec 4) : State :=
  let t : State := { State.reset with
    pending := s.pending, fresh := s.fresh, grade := s.grade, out := s.out
    ev := { s.ev with rdSeq := 0, latched := none, undurable := [] }
    sec := ((s.sec.cold cause).stored b).boot b.bankOk
    pow := { PowerUnit.reset with cal := s.pow.cal, input := s.pow.input, pwrGood := false, rails := .replicate 8 0, align := b.align }
    clk := { ClockUnit.reset with running := false, refLost := s.clk.refLost, refLoss := s.clk.refLost, offsetDraw := s.clk.offsetDraw + 1 } }
  let t := { t with host := { t.host with linkUp := t.mayLink } }.setRail 5 (railVolts 5)
  if t.sec.bootFail then t.standby
  else
    let t := t.bootChecks b
    let magic := b.calOk.1 && s.pow.cal.magicOk
    let bad := !(magic && b.calOk.2 && s.pow.cal.crcOk)
    let t := { t with pow := { t.pow with cls := b.straps, calBad := bad } }
    let t := if bad then t.event 0x408 5 none none (leBytes 1 (if magic then 1 else 0)) else t
    if b.straps = 3 then t.standby else t

/-- COLD_RESET (14 R328, R330; 16 R366): the input passes 39.0 V rising while the stage is off: the part boots. -/
def execColdReset (boot : BootFindings) (s : State) : Result :=
  if s.pow.state = .off then
    .next ({ s with pow := { s.pow with input := max 39000 s.pow.input } }.coldBoot boot (if s.sec.cause = 7 then 7 else 1))
  else .next s

/-- COLD_COMMAND_TURN_ON (16 R366; 14 R328): 100 ms after the power-down of a commanded cold reset the stage turns on and the part boots, unless the input lies below 39.0 V. -/
def execColdCommandTurnOn (boot : BootFindings) (s : State) : Result :=
  if s.pow.state = .coldWait && s.pow.downAt + 100000000 ≤ s.ns && 39000 ≤ s.pow.input then .next (s.coldBoot boot 2) else .next s

/-- Whether a rail may fail now: in its turn; MGR until the next rail is up. -/
def State.mayFail (s : State) (rail : Fin 8) : Bool :=
  s.booting && (s.railTurn == some rail || (rail == 5 && s.railTurn == some 6))

/-- RAIL_FAIL (14 R330): a rail not in regulation within 2 ms of its turn in a cold boot leaves the part in standby with PWRFAIL set, the rails brought up so far off again in reverse order; without MGR nothing is recorded. The rail's number in the record is its row of R329: row 6 is both SERDES rails. -/
def execRailFail (rail : Fin 8) (s : State) : Result :=
  if s.mayFail rail then
    if rail = 5 then .next (s.powerDown .off 7)
    else
      let s := (s.event 0x404 6 none none (leBytes 1 (min 6 rail.val))).standby
      .next { s with pow := { s.pow with pwrFail := true } }
  else .next s

/-- The steps of a cold boot that are left, all at once. -/
def State.bootSteps (s : State) : State := (List.range 9).foldl (fun s _ => if s.booting then s.bootStep else s) s

/-- BOOT_READY (16 R371): the rails are up, the crossings aligned, and the wipe of a cold boot has ended: READY 1, BUSY 0. -/
def execBootReady (s : State) : Result :=
  let s := s.bootSteps
  if s.pow.state = .on && s.sec.phase = .cold && !s.sec.bootFail && !s.sec.alignFail then
    .next { s with
      mem := []
      sec := { s.sec with phase := .ready, ready := true, wipe := false }
      asz := { s.asz with busy := false } }
  else .next s

/-! ## The input (14 R328, 18 R412) -/

/-- The time since which a condition has held. -/
def since (now : Nat) (holds : Bool) (old : Option Nat) : Option Nat := if holds then some (old.getD now) else none

/-- A band is entered: its bit, and its record (14 R328). -/
def State.bandRecord (s : State) (high : Bool) (mv : Nat) : State :=
  s.event 0x405 4 none none (leBytes 1 high.toNat ++ leBytes 1 0 ++ leBytes 2 (min 0xFFFF (mv / 10)))

/-- VIN_SAMPLE (14 R328, R334; 18 R412): one sample of input voltage and current; beyond the absolute maximum ratings the model stops. A reverse input is blocked: the part has no input. -/
def execVinSample (mv : Int) (ma : Nat) (s : State) : Result :=
  if mv < -60000 then .fault .outsideRatings else
  let mv := mv.toNat
  let u := s.pow
  let t := s.ns
  let hi := since t (66000 < mv) u.hiNs
  if 80000 < mv || (match hi with | some t0 => t0 + 1000000 < t | none => false) then .fault .outsideRatings
  else if !s.mgrUp then
    .next { s with pow := { u with lowSince := since t (mv < 20000) u.lowSince, hiNs := hi, input := mv } }
  else
    let low := 38000 ≤ mv && mv < 40000
    let high := 60000 < mv && mv ≤ 63000
    let s := s.modPow (fun u => { u with
      input := mv, vin := BitVec.ofNat 16 (min 0xFFFF (mv / 10)), iin := BitVec.ofNat 16 (min 0xFFFF (ma / 10))
      vinLow := u.vinLow || (low && !u.inLowBand), vinHigh := u.vinHigh || (high && !u.inHighBand)
      inLowBand := low, inHighBand := high
      underNs := since t (mv < 38000) u.underNs, overNs := since t (63000 < mv) u.overNs, ampNs := since t (70000 < ma) u.ampNs
      lowSince := since t (mv < 20000) u.lowSince, hiNs := hi, powerSum := u.powerSum + mv * ma, samples := u.samples + 1 })
    let s := if low && !u.inLowBand then { s.bandRecord false mv with justSet := .vinLow :: s.justSet } else s
    .next (if high && !u.inHighBand then { s.bandRecord true mv with justSet := .vinHigh :: s.justSet } else s)

/-- Whether a condition has lasted. -/
def State.lasted (s : State) (t : Option Nat) (ns : Nat) : Bool := match t with | some t => t + ns ≤ s.ns | none => false

/-- UNDERVOLTAGE_SHUTDOWN (14 R328): below 38.0 V for 50 us. -/
def execUndervoltageShutdown (s : State) : Result :=
  if s.mgrUp && s.lasted s.pow.underNs 50000 then .next (s.shutdown .off 1 0xFF) else .next s

/-- OVERVOLTAGE_SHUTDOWN (14 R328): above 63.0 V for 10 us; latched. -/
def execOvervoltageShutdown (s : State) : Result :=
  if s.mgrUp && s.lasted s.pow.overNs 10000 then .next (s.shutdown .latchedOff 2 0xFF) else .next s

/-- OVERCURRENT_SHUTDOWN (14 R328): above 70 A for 50 us; latched. -/
def execOvercurrentShutdown (s : State) : Result :=
  if s.mgrUp && s.lasted s.pow.ampNs 50000 then .next (s.shutdown .latchedOff 3 0xFF) else .next s

/-- MGR_LOSS (14 R331): MGR falls out of regulation: a power-down without a record. -/
def execMgrLoss (s : State) : Result := if s.mgrUp then .next (s.shutdown .off 5 0xFF) else .next s

/-- SHUTDOWN_LATCH_RELEASE (14 R328): after 100 ms below 20 V the stage may turn on again. -/
def execShutdownLatchRelease (s : State) : Result :=
  if s.pow.state = .latchedOff && s.lasted s.pow.lowSince 100000000 then .next { s with pow := { s.pow with state := .off } } else .next s

/-! ## Temperatures (14 R336) -/

/-- The readings in the order of R337, the power stage last. -/
def sensorList (t : SensorReadings) : List Nat := t.compute.toNat :: (t.hbm.toList.map BitVec.toNat ++ [t.mgr.toNat, t.stage.toNat])

/-- THERM_ALERT_N points in the same order. -/
def alertPoints : List Nat := [95, 85, 85, 85, 85, 85, 85, 100, 110]
/-- Throttle points. -/
def throttlePoints : List Nat := [100, 90, 90, 90, 90, 90, 90, 105, 115]
/-- Critical points. -/
def criticalPoints : List Nat := [115, 100, 100, 100, 100, 100, 100, 120, 125]

/-- Whether some sensor is at or above its point, less a margin. -/
def sensorReach (t : SensorReadings) (points : List Nat) (margin : Nat) : Bool :=
  ((sensorList t).zip points).any (fun e => e.2 ≤ e.1 + margin)

/-- THERM_ALERT_N after a change of the readings or of OVER. -/
def PowerUnit.alerted (u : PowerUnit) : PowerUnit :=
  { u with thermAlert :=
      if u.overP || sensorReach u.temps alertPoints 0 then true
      else if sensorReach u.temps alertPoints 4 then u.thermAlert
      else false }

/-- TEMP_SAMPLE (14 R336, 08 R213): the readings, THERM_ALERT_N, the refresh interval of each stack, and the power-down at a critical point, from standby too, once until a cold reset. -/
def execTempSample (temps : SensorReadings) (s : State) : Result :=
  if !s.mgrUp then .next s
  else
    let hbm := Vector.ofFn (fun k : Fin 6 => if s.grade.fitted k.val then temps.hbm[k] else 0)
    let temps := { temps with hbm := hbm }
    let s := { s with
      pow := PowerUnit.alerted { s.pow with temps := temps }
      hbm := Vector.ofFn (fun k : Fin 6 => { s.hbm[k] with hot := 85 < temps.hbm[k].toNat }) }
    match ((sensorList temps).zip criticalPoints).findIdx? (fun e => e.2 ≤ e.1) with
    | some j =>
      if !s.pow.thermCrit then
        let s := s.shutdown .standby 4 j
        .next { s with pow := { s.pow with thermCrit := true } }
      else .next s
    | none => .next s

/-! ## Envelope control (14 R332, R334, R335) -/

/-- Mean input power since the last adjustment, as a fraction of watts. -/
def PowerUnit.mean (u : PowerUnit) : Nat × Nat := if u.samples = 0 then (0, 1) else (u.powerSum, u.samples * 1000000)

/-- The effective envelope L as a fraction of watts (14 R332); WEIR_ENERGY counts once an assize is loaded. -/
def State.envelope (s : State) : Nat × Nat :=
  let fixed := ([classEnvelope s.pow.cls.toNat] ++ (if s.asz.loaded.isSome then [s.asz.energy.toNat] else []) ++
    (if s.pow.calBad then [1200] else [])).foldl min (classEnvelope s.pow.cls.toNat)
  let low := 60 * s.pow.vin.toNat
  if s.pow.inLowBand && low < fixed * 100 then (low, 100) else (fixed, 1)

/-- ZBLK and KCYC of every engine (05 R133). -/
def State.blockCounts (s : State) : List (Nat × Nat) := s.cores.toList.flatMap (fun k => k.mx.toList.map (fun e => (e.zblk.toNat, e.kcyc.toNat)))

/-- A counter's increase; one that a reset has zeroed meanwhile has risen from 0. -/
def rise (now last : Nat) : Nat := if now < last then now else now - last

/-- The sums of the increases of ZBLK and KCYC over every engine since the last adjustment. -/
def State.blockSums (s : State) : Nat × Nat :=
  let d := s.blockCounts.zipIdx.map (fun e => let o := s.pow.lastZK.getD e.2 (0, 0); (rise e.1.1 o.1, rise e.1.2 o.2))
  ((d.map Prod.fst).sum, (d.map Prod.snd).sum)

/-- The step count k of R334 for p, L, and z = a / b, all as fractions: one step changes p by (10 b - 4 a) / (400 b) of it. -/
def stepCount (p l : Nat × Nat) (a b : Nat) : Int :=
  let num := 10 * b - 4 * a
  let den := 400 * b
  if l.1 * p.2 < p.1 * l.2 then
    - ((((List.range 101).drop 1).find? (fun k => p.1 * (den - num * k) * l.2 ≤ l.1 * p.2 * den)).getD 100 : Nat)
  else
    (((List.range 9).reverse.find? (fun k => p.1 * (den + num * k) * l.2 * 100 ≤ 95 * l.1 * p.2 * den)).getD 0 : Nat)

/-- The target of an adjustment, never below FLOOR (02 R48; DESIGN CHOICE, log 35). -/
def State.adjustTarget (s : State) (k : Int) : Nat :=
  let ceil := effCeil s.pow.cls.toNat s.pow.calBad s.asz.ceil s.asz.boost
  let t := ((s.clk.setMhz : Int) + 25 * k).toNat
  let t := max s.asz.floor (min ceil t)
  if 2000 < t && sensorReach s.pow.temps throttlePoints 10 then max s.asz.floor 2000 else t

/-- The protective stop after 100 adjustments above the class envelope (14 R335). -/
def State.powerStop (s : State) : State :=
  let mask := (allParts.filter (fun p => (s.part p).pstate == .running && (s.part p).live)).foldl (fun n p => n + 2 ^ p.val) 0
  let s := allParts.foldl (fun s p => if mask / 2 ^ p.val % 2 = 1 then s.stopAcross p else s) s
  ({ s with pow := { s.pow with aboveClass := 0 } }).event 0x407 6 none none (leBytes 1 mask)

/-- OVER at the floor, its record, and the count towards the protective stop (14 R335). -/
def State.overCheck (s : State) (p l : Nat × Nat) : State :=
  let above := l.1 * p.2 < p.1 * l.2
  let atFloor := s.clk.setMhz = s.asz.floor && above
  let s := s.modPow (fun u => PowerUnit.alerted { u with
    overP := if atFloor then true else if above then u.overP else false
    aboveClass := if classEnvelope u.cls.toNat * p.2 < p.1 then u.aboveClass + 1 else 0 })
  let s := if atFloor then s.event 0x406 3 none none (leBytes 2 (p.1 / p.2) ++ leBytes 2 (l.1 / l.2)) else s
  if 100 ≤ s.pow.aboveClass then s.powerStop else s

/-- ENVELOPE_ADJUST (14 R334, R335): at every 1,000,000 ns one adjustment from p, L, the gated fraction and the temperatures. -/
def execEnvelopeAdjust (s : State) : Result :=
  if s.pow.state ≠ .on || s.clk.tb.toNat % 1000000 ≠ 0 || s.pow.adjAt = some s.clk.tb.toNat then .next s
  else
    let p := s.pow.mean
    let l := s.envelope
    let sums := s.blockSums
    let dz := sums.1
    let dk := sums.2
    let a := if dk = 0 then 0 else min dz (64 * dk)
    let b := if dk = 0 then 1 else 64 * dk
    let k : Int := if sensorReach s.pow.temps throttlePoints 0 then -4 else stepCount p l a b
    let target := s.adjustTarget k
    let s := { s with pow := { s.pow with
      pAdj := BitVec.ofNat 16 (p.1 / p.2), lAdj := BitVec.ofNat 16 (l.1 / l.2), z := BitVec.ofNat 16 (min 0xFFFF (65536 * a / b))
      k := BitVec.ofInt 8 k, powerSum := 0, samples := 0, adjAt := some s.clk.tb.toNat, lastZK := s.blockCounts } }
    let s := s.overCheck p l
    .next (if s.clk.shownMhz = 0 || target = s.clk.setMhz then s else s.requestChange target)

/-! ## Calibration (14 R338, R339) -/

/-- The calibration set byte for byte: the fields that R338 gives bytes 4 and 7:4 overlap in byte 4, where ORIGIN is kept (PRESUMED, log 30). -/
def calBytes (c : CalSet) : List Byte :=
  leBytes 4 c.magic.toNat ++ leBytes 1 c.user.toNat ++ leBytes 3 (c.crc.toNat / 256) ++
    (List.range 4088).map (fun i => (c.body.lookup (8 + i)).getD 0)

/-- A piece of the calibration set: 256 B at an offset that is a multiple of 256 (15 R365). -/
def calOffset (off : Nat) : Bool := off % 256 = 0 && off < 4096

/-- CAL_READ (14 R339, 15 R365): within a secured session, in any state but standby with an invalid strap: the piece at an offset. -/
def execCalRead (piece : CalRequest) (s : State) : Result :=
  if !s.mgrUp then .next s
  else if !s.secured piece.sec || (s.pow.state = .standby && s.pow.cls = 3) || !calOffset piece.off then .next (s.answer false [])
  else .next (s.answer true (((calBytes s.pow.cal).drop piece.off).take 256))

/-- The remainder of a CRC-32 after one more byte, least significant bit first, with the polynomial of IEEE 802.3 (PRESUMED, log 30). -/
def crcByte (c : Nat) (b : Byte) : Nat :=
  (List.range 8).foldl (fun c _ => if c % 2 = 1 then c / 2 ^^^ 0xEDB88320 else c / 2) (c ^^^ b.toNat)

/-- CRC-32. -/
def crc32 (l : List Byte) : BitVec 32 := BitVec.ofNat 32 (l.foldl crcByte 0xFFFFFFFF ^^^ 0xFFFFFFFF)

/-- The calibration set that 4 KiB spell: of its CRC bits 31:8 are kept beside ORIGIN (PRESUMED, log 30). -/
def calOf (l : List Byte) : CalSet :=
  let crc := crc32 (l.drop 8)
  { magic := BitVec.ofNat 32 (leNat (l.take 4)), user := bit (byteAt l 4) 0, crcOk := leNat ((l.drop 5).take 3) == crc.toNat / 256, crc := crc
    body := (((l.drop 8).take 4088).zipIdx.filter (fun e => e.1 != 0)).map (fun e => (8 + e.2, e.1)) }

/-- Whether CAL_WRITE is taken: within a secured session, in PROVISIONED or DEPLOYED with the AIK, while no partition runs (14 R339; 16 R378). -/
def State.calOpen (s : State) (sec : Bool) : Bool :=
  s.secured sec && (s.sec.lcs = 1 || s.sec.lcs = 2) && s.sec.aik && allParts.all (fun p => (s.part p).pstate != .running)

/-- The sixteen pieces of a set that have all arrived, in order. -/
def calPieces (l : List (Nat × List Byte)) : Option (List Byte) :=
  if (List.range 16).all (fun i => (l.lookup (256 * i)).isSome) then some ((List.range 16).flatMap (fun i => (l.lookup (256 * i)).getD [])) else none

/-- All pieces have arrived: a set with good magic and CRC replaces the stored one with ORIGIN = 1, any other is refused. -/
def State.takeCal (s : State) (l : List Byte) : State :=
  let set := calOf l
  let s := { s with sec := { s.sec with calParts := [] } }
  if set.magicOk && set.crcOk then
    ({ s with pow := { s.pow with cal := { set with user := true } } }.event 0x409 4 none none (leBytes 4 set.crc.toNat)).answer true []
  else s.answer false []

/-- CAL_WRITE (14 R339, 15 R365, 16 R378): a piece of the set; with the last of the sixteen that one secured session brings, the set is written. It takes effect at the next cold reset. -/
def execCalWrite (sec : Bool) (piece : CalPiece) (s : State) : Result :=
  if !s.mgrUp then .next s
  else if s.calOpen sec && calOffset piece.off && piece.bytes.length = 256 then
    let parts := putKey piece.off piece.bytes s.sec.calParts
    match calPieces parts with
    | some l => .next (s.takeCal l)
    | none => .next ({ s with sec := { s.sec with calParts := parts } }.answer true [])
  else .next (s.answer false [])

end Sys2Proof.Machine
end

