-- ==== Sys2Proof/Machine/Security.lean ====
section
/-! DEFINITION. Security.lean: commanded resets, wipes, the life cycle, the security alarm's triggers, the TAP, PLDM and SPDM (16 R366-R383; 15 R340, R364, R365), and the meanings of their commands. -/

namespace Sys2Proof.Machine

/-! ## Registers of the security block (16 R382, 15 R345) -/

/-- SEC_LCS. -/
def SecurityUnit.lcsWord (u : SecurityUnit) : Nat :=
  u.policy.toNat * 2 ^ 17 + u.sessionKeys.toNat * 2 ^ 11 + (u.verifyKey && u.storageKey).toNat * 2 ^ 10 + u.storageKey.toNat * 2 ^ 9 +
    u.aik.toNat * 2 ^ 8 + u.reprov.toNat * 2 ^ 4 + u.lcs.toNat

/-- SEC_ALARM. -/
def SecurityUnit.alarmWord (u : SecurityUnit) : Nat :=
  u.alarms.toNat * 2 ^ 48 + u.wipe.toNat * 2 ^ 33 + u.tamperOpen.toNat * 2 ^ 32 + u.trig.toNat

/-- SEC_BOOT. -/
def SecurityUnit.bootWord (u : SecurityUnit) : Nat :=
  u.cause.toNat * 2 ^ 12 + u.bank.toNat * 2 ^ 8 + u.bootFail.toNat * 2 + u.ready.toNat

/-- MGR_ID (15 R345). -/
def State.idWord (s : State) : Nat :=
  s.grade.code.toNat * 2 ^ 48 + 0x00A1 * 2 ^ 32 + s.sec.fwVersion.toNat * 2 ^ 16 + s.grade.cores * 2 ^ 8 +
    ((List.range 6).map (fun k => if s.grade.fitted k then 2 ^ k else 0)).sum

/-- PWR_PIN (14 R337). -/
def PowerUnit.pinWord (u : PowerUnit) : Nat := u.vin.toNat * 2 ^ 48 + u.iin.toNat * 2 ^ 32 + u.pAdj.toNat * 2 ^ 16 + u.lAdj.toNat

/-- PWR_HEAD (14 R337). -/
def PowerUnit.headWord (u : PowerUnit) : Nat := u.z.toNat * 2 ^ 16 + u.k.toNat * 2 ^ 8

/-- PWR_TEMP (14 R337): sensors 0 to 7. -/
def PowerUnit.tempWord (u : PowerUnit) : Nat := leNat (((sensorList u.temps).take 8).map (BitVec.ofNat 8))

/-! ## Commanded resets (16 R366-R370, R372) -/

/-- MGR_RST as the host writes it: a key other than 0xA5A5_5A5A drops the write (R370, R344). -/
def State.keyed (s : State) (key : BitVec 32) (go : State → State) : State :=
  if !s.hostUp then s else if key = 0xA5A55A5A then go s else s.emit .advisoryError

/-- A partition reset for each partition of a mask; within a reset of higher rank it does nothing (R369). -/
def State.partitionResets (s : State) (pmask : BitVec 8) : State :=
  if s.sec.phase ≠ .ready then s
  else allParts.foldl (fun s p => if bit pmask p.val then s.partitionReset p else s) s

/-- A cold reset by command: the power-down of R331 first. -/
def State.coldCommand (s : State) : State := s.powerDown .coldWait 2

/-- MGR_RST_WARM (16 R370). -/
def execMgrRstWarm (key : BitVec 32) (s : State) : Result := .next (s.keyed key (fun s : State => s.warmReset 3))

/-- MGR_RST_PARTITION (16 R368, R370). -/
def execMgrRstPartition (key : BitVec 32) (pmask : BitVec 8) (s : State) : Result :=
  .next (s.keyed key (fun s : State => { s with sec := { s.sec with rstPmask := pmask } }.partitionResets pmask))

/-- MGR_RST_COLD (16 R366, R370). -/
def execMgrRstCold (key : BitVec 32) (s : State) : Result := .next (s.keyed key State.coldCommand)

/-- MCTP_RESET_COLD (16 R366): accepted only within a secured session. -/
def execMctpResetCold (sec : Bool) (s : State) : Result :=
  if !s.mgrUp then .next s
  else if s.secured sec then .next ((s.answer true []).coldCommand)
  else .next (s.answer false [])

/-- MCTP_RESET_WARM (16 R366): accepted only within a secured session, and not in standby. -/
def execMctpResetWarm (sec : Bool) (s : State) : Result :=
  if !s.mgrUp then .next s
  else if s.secured sec && s.pow.state == .on then .next ((s.answer true []).warmReset 3)
  else .next (s.answer false [])

/-- MCTP_RESET_PARTITION (16 R366, R368): accepted only within a secured session, and not in standby. -/
def execMctpResetPartition (sec : Bool) (pmask : BitVec 8) (s : State) : Result :=
  if !s.mgrUp then .next s
  else if s.secured sec && s.pow.state == .on then .next ((s.answer true []).partitionResets pmask)
  else .next (s.answer false [])

/-- PARTITION_WIPE_DONE (16 R368): the partition's storage holds zeros, INRST clears, PSTATE is stopped. -/
def execPartitionWipeDone (p : PartId) (s : State) : Result :=
  if (s.part p).inrst then
    .next ((s.wipeSpans (s.storageOf p)).modPart p (fun q => { q with inrst := false, pstate := .stopped }))
  else .next s

/-- WARM_RESET_READY (16 R372, 12 R290): aligned, trained and wiped, the part is ready; a crossing that fails leaves it not ready with its record (02 R30). -/
def execWarmResetReady (fault : Option AlignFault) (s : State) : Result :=
  if s.sec.phase ≠ .warm || s.sec.alignFail then .next s
  else match fault with
    | some f =>
      .next ({ s with sec := { s.sec with alignFail := true } }.event 0x104 6 none none (leBytes 2 f.core.val ++ leBytes 1 f.side.val))
    | none =>
      .next { s with
        mem := [], wbuf := []
        clk := { s.clk with running := true }
        sec := { s.sec with phase := .ready, ready := true, wipe := false }
        asz := { s.asz with busy := false } }

/-! ## Life cycle (16 R374-R378) -/

/-- A refused life-cycle command: its record (severity 4) and its answer. reason: 0 authorisation, 1 BUSY, 2 AIK absent. -/
def State.lcRefused (s : State) (code reason : Nat) : State :=
  (s.event 0x601 4 none none (leBytes 1 code ++ leBytes 1 reason)).answer false []

/-- An accepted transition: every partition stopped, the keys changed, its record, a warm reset (16 R376). -/
def State.lcChange (s : State) (keys : SecurityUnit → SecurityUnit) : State :=
  let s := s.stopAll
  let old := s.sec.lcs.toNat
  let s := { s with sec := keys s.sec }
  ((s.event 0x602 5 none none (leBytes 1 old ++ leBytes 1 s.sec.lcs.toNat)).answer true []).warmReset 6

/-- A life-cycle command: outside a secured session it is refused; a command that fails authorisation, or whose transition the life-cycle state does not have, or that finds BUSY, is refused with its record (16 R375). -/
def State.lcCommand (s : State) (sec : Bool) (code : Nat) (ok : Bool) (aikNeeded : Bool) (keys : SecurityUnit → SecurityUnit) : State :=
  if !s.mgrUp then s
  else if !s.secured sec then s.answer false []
  else if !ok then s.lcRefused code 0
  else if s.asz.busy then s.lcRefused code 1
  else if aikNeeded && !s.sec.aik then s.lcRefused code 2
  else s.lcChange keys

/-- LC_PROVISION's keys: AIK and storage key generated, the verification key sealed, the policy fused. Private access of the TAP ends with RETURNED (R383). -/
def SecurityUnit.provision (u : SecurityUnit) (r : Provisioning) : SecurityUnit :=
  { u with
    lcs := 1, aik := true, storageKey := true, verifyKey := true, assizeKey := r.key, policy := r.policy, alarms := 0
    tap := if u.tap = 6 then 0 else u.tap
    reprov := if u.lcs = 3 then u.reprov + 1 else u.reprov }

/-- LC_RETURN's keys: AIK, storage key and session keys erased. -/
def SecurityUnit.returned (u : SecurityUnit) : SecurityUnit := { u.erase 7 with lcs := 3 }

/-- LC_PROVISION (16 R375): from BLANK, or from RETURNED at most three times; its token chains to the Nerile root key. -/
def execLcProvision (sec : Bool) (token : Token) (record : Provisioning) (s : State) : Result :=
  .next (s.lcCommand sec 3 (s.permits token false true && (s.sec.lcs == 0 || (s.sec.lcs == 3 && s.sec.reprov.toNat < 3))) false
    (fun u : SecurityUnit => u.provision record))

/-- LC_DEPLOY (16 R375, R378): from PROVISIONED, with a token of the assize verification key; refused while the AIK is absent. -/
def execLcDeploy (sec : Bool) (token : Token) (s : State) : Result :=
  .next (s.lcCommand sec 4 (s.permits token true false && s.sec.lcs == 1) true (fun u : SecurityUnit => { u with lcs := 2 }))

/-- LC_RETURN (16 R375): from PROVISIONED or DEPLOYED, with a token of either key. -/
def execLcReturn (sec : Bool) (token : Token) (s : State) : Result :=
  .next (s.lcCommand sec 5 (s.permits token true true && (s.sec.lcs == 1 || s.sec.lcs == 2)) false SecurityUnit.returned)

/-! ## Triggers of the alarm (16 R379) -/

/-- TAMPER_OPEN (16 R379): the lid loop opens: trigger 0, unless it has stayed closed for less than 1 ms since it was last open. -/
def execTamperOpen (s : State) : Result :=
  if !s.mgrUp || s.sec.tamperOpen then .next s
  else
    let armed := s.sec.tamperArmed || s.lasted s.sec.tamperClosedAt 1000000
    let s := { s with sec := { s.sec with tamperOpen := true, tamperArmed := false, tamperClosedAt := none } }
    .next (if armed then s.alarm 0 else s)

/-- TAMPER_LOOP_CLOSE (16 R379): TAMPER clears; the loop counts as armed again once it has stayed closed for 1 ms. -/
def execTamperLoopClose (s : State) : Result :=
  if s.mgrUp && s.sec.tamperOpen then
    .next { s with sec := { s.sec with tamperOpen := false, tamperClosedAt := some s.ns } }
  else .next s

/-- GLITCH (16 R379): trigger 1. -/
def execGlitch (s : State) : Result := .next (s.alarm 1)

/-! ## The TAP (16 R383) -/

/-- Whether a TAP instruction drives the pins: 3 EXTEST, 4 CLAMP, 5 HIGHZ. -/
def drivesPins (code : Nat) : Bool := 3 ≤ code && code ≤ 5

/-- A TAP instruction loaded: 0 BYPASS, 1 IDCODE, 2 SAMPLE/PRELOAD, 3 EXTEST, 4 CLAMP, 5 HIGHZ, 6 a private one. Entering one that drives the pins, outside RETURNED, stops every partition and drops the links until the TAP leaves it. -/
def State.tapEnter (s : State) (code : Nat) : State :=
  if !s.mgrUp then s
  else
    let was := drivesPins s.sec.tap.toNat
    let s := { s with sec := { s.sec with tap := BitVec.ofNat 3 code } }
    if drivesPins code then
      if s.sec.lcs = 3 then s
      else
        let s := s.stopAllAcross
        let s := { s with host := { s.host with linkUp := false } }
        allPorts.foldl (fun s n => if s.fab.ports[n].up then (s.modPort n (fun q => { q with up := false })).raise 10 else s) s
    else if was then { s with host := { s.host with linkUp := s.mayLink } }
    else s

/-- TAP_BYPASS (16 R383). -/
def execTapBypass (s : State) : Result := .next (s.tapEnter 0)
/-- TAP_IDCODE (16 R383). -/
def execTapIdcode (s : State) : Result := .next (s.tapEnter 1)
/-- TAP_SAMPLE_PRELOAD (16 R383). -/
def execTapSamplePreload (s : State) : Result := .next (s.tapEnter 2)
/-- TAP_EXTEST (16 R383). -/
def execTapExtest (s : State) : Result := .next (s.tapEnter 3)
/-- TAP_CLAMP (16 R383). -/
def execTapClamp (s : State) : Result := .next (s.tapEnter 4)
/-- TAP_HIGHZ (16 R383). -/
def execTapHighz (s : State) : Result := .next (s.tapEnter 5)

/-- TAP_PRIVATE (16 R383): in RETURNED the private instruction is loaded; what is then scanned or accessed through it is not in the spec and not in this model (DEDUCED, log 73). In any other state it is decoded as BYPASS, with trigger 2. -/
def execTapPrivate (s : State) : Result :=
  if !s.mgrUp then .next s
  else if s.sec.lcs = 3 then .next (s.tapEnter 6)
  else .next ((s.tapEnter 0).alarm 2)

/-! ## PLDM (15 R364, 16 R371, R374) -/

/-- Whether the life-cycle state accepts a verified firmware image. -/
def SecurityUnit.takes (u : SecurityUnit) (fw : FirmwareImage) : Bool :=
  fw.verified && (match u.lcs with
    | 2 => !fw.evaluation && u.fwMin.toNat ≤ fw.version.toNat
    | 1 => true
    | _ => !fw.evaluation)

/-- PLDM_FIRMWARE_UPDATE (15 R364): a verified image the life-cycle state accepts goes into the inactive bank and becomes active at the next cold reset. -/
def execPldmFirmwareUpdate (fw : FirmwareImage) (s : State) : Result :=
  if !s.mgrUp then .next s
  else if s.sec.takes fw then .next ({ s with sec := { s.sec with fwPending := some fw } }.answer true [])
  else .next (s.answer false [])

/-- PLDM_SENSOR_READ (15 R364; 14 R337; 16 R382): the sensors and state fields as one word each, the power stage among them. -/
def execPldmSensorRead (s : State) : Result :=
  if !s.mgrUp then .next s
  else if s.sec.bootFail then .next (s.answer false [])
  else .next (s.answer true (([s.pow.stat, s.pow.pinWord, s.pow.headWord, s.pow.tempWord, s.pow.temps.stage.toNat, s.idWord,
    s.sec.lcsWord, s.sec.alarmWord, s.sec.bootWord]).flatMap (leBytes 8)))

/-- PLDM_DISCOVERY (15 R364): types 0, 2 and 5. -/
def execPldmDiscovery (s : State) : Result :=
  if !s.mgrUp then .next s
  else if s.sec.bootFail then .next (s.answer false [])
  else .next (s.answer true [0, 2, 5])

/-! ## SPDM (15 R365, 16 R377, R378) -/

/-- Whether SPDM answers with the AIK's chain: in PROVISIONED and DEPLOYED while the AIK is present; otherwise with the device identity's. -/
def SecurityUnit.aikChain (u : SecurityUnit) : Bool := u.aik && (u.lcs == 1 || u.lcs == 2)

/-- An SPDM answer: which chain signs, its data, and a signature that the spec does not fix. -/
def State.signed (s : State) (data : List Byte) : State :=
  { s with fresh := s.fresh + 1 }.answer true (leBytes 1 s.sec.aikChain.toNat ++ data ++ leBytes 8 (Config.freeValue s.fresh).toNat)

/-- SPDM_GET_CERTIFICATE (15 R365, 16 R378): the chain, named by its key. -/
def execSpdmGetCertificate (s : State) : Result :=
  if !s.mgrUp then .next s
  else if s.sec.bootFail then .next (s.answer false [])
  else .next (s.answer true (leBytes 1 s.sec.aikChain.toNat))

/-- SPDM_CHALLENGE (15 R365): a signature over the nonce. -/
def execSpdmChallenge (nonce : BitVec 256) (s : State) : Result :=
  if !s.mgrUp then .next s
  else if s.sec.bootFail then .next (s.answer false [])
  else .next (s.signed (leBytes 32 nonce.toNat))

/-- SPDM_GET_MEASUREMENTS (15 R365): blocks 1 to 5; the measurements of the two firmwares are free values. -/
def execSpdmGetMeasurements (nonce : BitVec 256) (s : State) : Result :=
  if !s.mgrUp then .next s
  else if s.sec.bootFail then .next (s.answer false [])
  else
    let block4 := s.sec.policy.toNat * 8 + s.sec.aik.toNat * 4 + s.sec.lcs.toNat
    let s' := { s with fresh := s.fresh + 2 }
    .next (s'.signed (leBytes 32 nonce.toNat ++ leBytes 8 (Config.freeValue s.fresh).toNat ++
      leBytes 8 (Config.freeValue (s.fresh + 1)).toNat ++ leBytes 8 s.asz.digest.toNat ++ leBytes 8 block4 ++ leBytes 1 s.pow.cal.user.toNat))

/-- SPDM_KEY_EXCHANGE (15 R365): an exchange that completes opens a secured session with its nonce; one that does not has none. -/
def execSpdmKeyExchange (nonce : Option (BitVec 256)) (s : State) : Result :=
  if !s.mgrUp then .next s
  else match s.sec.bootFail, nonce with
    | false, some n => .next ({ s with sec := { s.sec with sessionKeys := true, nonce := n, calParts := [] } }.answer true [])
    | _, _ => .next (s.answer false [])

/-- IDE_KM (15 R340, 16 R378): within a secured session, the keys of one IDE stream are installed, and a stopped one carries traffic again. -/
def execIdeKm (sec : Bool) (stream : Fin 5) (s : State) : Result :=
  if !s.mgrUp then .next s
  else if s.secured sec then .next ({ s with sec := { s.sec with ide := setBit s.sec.ide stream.val true, ideStopped := setBit s.sec.ideStopped stream.val false } }.answer true [])
  else .next (s.answer false [])

end Sys2Proof.Machine
end

