-- ==== Sys2Proof/Machine/Host.lean ====
section
/-! DEFINITION. Host.lean: session contexts, doorbells, input slots and the host link's own resets (15 R342, R344, R348-R352; 17 R397), and the meanings of their commands. -/

namespace Sys2Proof.Machine

/-! ## Registers written in halves (15 R344) -/

/-- The 64-bit value of a register after an aligned write of 8 B or 4 B; none for any other size or alignment. -/
def mergeWrite (old : BitVec 64) (off size : Nat) (value : BitVec 64) : Option (BitVec 64) :=
  if size = 8 && off % 8 = 0 then some value
  else if size = 4 && off % 8 = 0 then some (old.extractLsb' 32 32 ++ value.extractLsb' 0 32)
  else if size = 4 && off % 8 = 4 then some (value.extractLsb' 0 32 ++ old.extractLsb' 0 32)
  else none

/-! ## Session contexts (15 R349) -/

/-- Register j of a session context: offset 8 j. -/
def Session.word (x : Session) : Nat → BitVec 64
  | 0 => BitVec.ofNat 64 (x.valid.toNat * 2 ^ 63 + x.func.toNat * 2 ^ 56 + x.act.toNat * 2 ^ 48 + x.part.toNat * 2 ^ 45 +
      x.slot.toNat * 2 ^ 40 + x.vec.toNat * 2 ^ 24 + x.nring.toNat)
  | 1 => x.inRing
  | 2 => x.outRing
  | 3 => x.cpl
  | 4 => BitVec.ofNat 64 (x.outLn.toNat * 2 ^ 24 + x.inLn.toNat)
  | 5 => BitVec.ofNat 64 (x.pend.toNat * 2 ^ 48 + x.placed.toNat * 2 ^ 24 + x.rung.toNat)
  | _ => 0

/-- The fields other than VALID that a write sets while the session is closed. -/
def Session.setWord (x : Session) (j : Nat) (w : BitVec 64) : Session :=
  match j with
  | 0 => { x with
      func := w.extractLsb' 56 7, act := w.extractLsb' 48 8, part := w.extractLsb' 45 3, slot := w.extractLsb' 40 5
      vec := w.extractLsb' 24 11, nring := w.extractLsb' 0 16 }
  | 1 => { x with inRing := w }
  | 2 => { x with outRing := w }
  | 3 => { x with cpl := w }
  | 4 => { x with outLn := w.extractLsb' 24 24, inLn := w.extractLsb' 0 24 }
  | _ => x

/-- The sequence numbers of a session that is being opened. -/
def Session.opened (x : Session) : Session :=
  { x with valid := true, pend := 0, placed := 0, rung := 0, bells := 0, outs := 0, cpls := 0 }

/-- The waiting doorbells of some sessions are dropped, at the weir too, a placement of one of them abandoned; no completion is written. -/
def State.dropBells (s : State) (of : Nat → Bool) : State :=
  let t := s.dropSoft (fun f => match f with
      | .placement p i _ => (match (s.part p).slots[i].placing with | some key => of (key % 4096) | none => false)
      | _ => false)
  { t with
    asz := { t.asz with waiting := t.asz.waiting.filter (fun (e : Nat × Transfer) => match e.2 with | .bell n _ _ _ _ => !of n.val | _ => true) }
    host := { s.host with bells := s.host.bells.filter (fun b : Doorbell => !of b.session.val) }
    parts := s.parts.map (fun q => { q with slots := q.slots.map (fun sl => match sl.placing with
      | some key => if of (key % 4096) then { sl with placing := none, fetchOwed := 0 } else sl
      | none => sl) }) }

/-- Some sessions close. -/
def State.closeSessions (s : State) (of : Nat → Session → Bool) : State :=
  let t := s.dropBells (fun n => of n (s.session n))
  { t with host := { t.host with sessions := t.host.sessions.map (fun (e : Nat × Session) =>
      if of e.1 e.2 then (e.1, { e.2 with valid := false, pend := 0 }) else e) } }

/-- A write of register j of a session context. While VALID = 1 only VALID changes: a write of another field is dropped with an advisory error, and so are other values of the fields beside a VALID cleared (log 39). -/
def State.sesWrite (s : State) (n : Nat) (off size : Nat) (value : BitVec 64) : State :=
  let x := s.session n
  let j := off / 8
  match mergeWrite (x.word j) off size value with
  | none => s
  | some w =>
    let valid := bit w 63
    if x.valid then
      if j = 0 && !valid then
        let t := s.closeSessions (fun m _ => m == n)
        if setBit w 63 true = x.word 0 then t else t.emit .advisoryError
      else if 5 ≤ j then s
      else s.emit .advisoryError
    else s.modSession n (fun x => if j = 0 && valid then (x.setWord 0 w).opened else x.setWord j w)

/-- SES_CTX_WRITE (15 R349, R344). -/
def execSesCtxWrite (n : Fin 4096) (off : BitVec 6) (size : Nat) (value : BitVec 64) (s : State) : Result :=
  if s.hostUp then .next (s.sesWrite n.val off.toNat size value) else .next s

/-! ## Doorbells (15 R350) -/

/-- Lines of each half of a session's input slot. -/
def State.halfLines (s : State) (x : Session) : Nat :=
  let sl := (s.manifestSlots (Fin.ofNat 8 x.part.toNat))[(Fin.ofNat 32 x.slot.toNat : Fin 32)]
  if sl.valid then sl.h else 0

/-- Why a doorbell of an open session is refused: 1 written through another function, 2 LINES, 3 ring full, 4 slot too small. -/
def State.bellRefusal (s : State) (x : Session) (fn lines : Nat) : Option Nat :=
  if fn ≠ x.func.toNat then some 1
  else if lines = 0 || x.inLn.toNat < lines then some 2
  else if x.pend = x.nring then some 3
  else if s.halfLines x < lines + 1 then some 4
  else none

/-- A doorbell among those that wait, in the order of their arrival (R351). -/
def placeBell (b : Doorbell) : List Doorbell → List Doorbell
  | [] => [b]
  | x :: l => if b.order < x.order then b :: x :: l else x :: placeBell b l

/-- An accepted doorbell waits for its placement. -/
def State.takeBell (s : State) (n : Fin 4096) (lines : Nat) (tag : BitVec 32) (order : Nat) (tb : BitVec 64) : State :=
  let x := s.session n.val
  let b : Doorbell := { order := order, session := n, lines := lines, tag := tag, seq := x.bells, tb := tb }
  let s := { s with host := { s.host with bells := placeBell b s.host.bells } }
  s.modSession n.val (fun x => { x with bells := x.bells + 1, rung := x.rung + 1, pend := x.pend + 1 })

/-- A refused doorbell: its completion; the doorbell number of a refused one is not in the spec: a free value. -/
def State.refuseBell (s : State) (n : Fin 4096) (stat lines : Nat) (tag : Nat) : State :=
  { s with fresh := s.fresh + 1 }.complete n.val 3 stat lines tag ((Config.freeValue s.fresh).toNat % 2 ^ 32)

/-- A doorbell that the weir has admitted: accepted or refused. order, tb: its place in the order of arrival and the time base then. -/
def State.ringNow (s : State) (n : Fin 4096) (fn : Nat) (value : BitVec 64) (order : Nat) (tb : BitVec 64) : State :=
  let x := s.session n.val
  let lines := fld value 23 0
  let tag := value.extractLsb' 32 32
  if !x.valid then s
  else match s.bellRefusal x fn lines with
    | some why => s.refuseBell n why lines tag.toNat
    | none => s.takeBell n lines tag order tb

/-- A doorbell rung through a function, metered by its session's activity (15 R347). -/
def State.ring (s : State) (n : Fin 4096) (fn size : Nat) (value : BitVec 64) : State :=
  let x := s.session n.val
  if !x.valid then s
  else if size ≠ 8 then
    { s with fresh := s.fresh + 2 }.refuseBell n 0 ((Config.freeValue s.fresh).toNat % 2 ^ 32) ((Config.freeValue (s.fresh + 1)).toNat % 2 ^ 32)
  else
    let order := s.host.rings
    match { s with host := { s.host with rings := order + 1 } }.meter x.act.toNat (.bell n fn value order s.clk.tb) with
    | (.admitted, s) => s.ringNow n fn value order s.clk.tb
    | (.waits, s) => s
    | (.refused, s) => s.emit .advisoryError

/-- DOORBELL (15 R350): accepted, or refused with a completion; one of a closed session writes nothing. -/
def execDoorbell (n : Fin 4096) (fn : Nat) (size : Nat) (value : BitVec 64) (s : State) : Result :=
  if s.hostUp && fn ≤ 64 then .next (s.ring n fn size value) else .next s

/-! ## Input slots (15 R351, R352) -/

/-- SLOT_EMPTY_WRITE (15 R351): from d_(k-1) on an EMPTY header goes into half k mod 2 in an idle write slot, and the slot is ready for occurrence k; a replay takes the header from its record. It waits while the die-to-die link trains anew (17 R386). -/
def execSlotEmptyWrite (p : PartId) (slot : Fin 32) (s : State) : Result :=
  let sl := (s.part p).slots[slot]
  let a := sl.lineAt (sl.k % 2) 0
  if (s.part p).live && sl.valid && sl.readyFor ≤ sl.k && !s.fab.d2dTraining && (s.replaying p || s.writeFree a) then
    let s := if s.replaying p then s else s.softWrite a 2 sl.core.val 0
    .next (s.modSlot p slot (fun x => { x with readyFor := x.k + 1, filled := false }))
  else .next s

/-- The oldest waiting doorbell among the open sessions of a partition and slot. -/
def State.oldestBell (s : State) (p : PartId) (slot : Fin 32) : Option Doorbell :=
  s.host.bells.find? (fun b : Doorbell => let x := s.session b.session.val
    x.valid && x.part.toNat == p.val && x.slot.toNat == slot.val)

/-- Whether a half may still be written: d_k - 8 has not passed (R351). -/
def State.halfOpen (s : State) (p : PartId) (sl : InputSlot) : Bool :=
  (s.part p).live && sl.valid && sl.readyFor = sl.k + 1 && (s.part p).count + 8 ≤ sl.dueCount && !s.replaying p

/-- The host address of the input of a session's k-th accepted doorbell (15 R350). -/
def Session.inputAt (x : Session) (k : Nat) : Nat := x.inRing.toNat + 64 * x.inLn.toNat * (k % x.nring.toNat)

/-- The input of the doorbell under placement in a slot is read from its session's ring. -/
def State.readInput (s : State) (p : PartId) (slot : Fin 32) : State :=
  match s.host.bells.find? (fun b : Doorbell => (s.part p).slots[slot].placing == some b.key) with
  | none => s
  | some b => s.emit (.hostRead ((s.session b.session.val).inputAt b.seq) (64 * b.lines))

/-- INPUT_PLACEMENT (15 R347, R350, R351): the oldest waiting doorbell's input is fetched from the session's ring, a unit of its activity a line, once the weir has admitted them all; not where the activity refuses every transfer. -/
def execInputPlacement (p : PartId) (slot : Fin 32) (s : State) : Result :=
  let sl := (s.part p).slots[slot]
  match s.oldestBell p slot with
  | none => .next s
  | some b =>
    if s.hostUp && s.halfOpen p sl && sl.placing.isNone && !sl.filled then
      let n := (s.session b.session.val).act.toNat
      if s.refuses n then .next s
      else
        let k := if s.queued n then 0 else s.creditFor n b.lines
        let s := (s.spend n k).modSlot p slot (fun sl => { sl with placing := some b.key, fetchOwed := b.lines - k })
        if k < b.lines then .next { s with asz := { s.asz with waiting := s.asz.waiting ++ [(n, .fetch p slot)] } }
        else .next (s.readInput p slot)
    else .next s

/-- A FULL header (15 R352). -/
def fullHeader (b : Doorbell) : Line :=
  bytesLine (leBytes 2 b.session.val ++ leBytes 1 1 ++ leBytes 5 0 ++ leBytes 4 b.lines ++ leBytes 4 b.tag.toNat ++ leBytes 8 b.seq ++
    leBytes 8 b.tb.toNat ++ List.replicate 32 0)

/-- The writes of a placement: lines 1 to LINES, then the FULL header in line 0 (15 R351). -/
def placementWrites (sl : InputSlot) (b : Doorbell) (lines : List Line) : List SoftLine :=
  lines.zipIdx.map (fun l => SoftLine.put (sl.lineAt (sl.k % 2) (l.2 + 1)) l.1) ++ [SoftLine.put (sl.lineAt (sl.k % 2) 0) (fullHeader b)]

/-- PLACEMENT_COMPLETE (15 R347, R351): the input has been fetched: its lines and its header are written in idle slots as the weir admits them; with the header the input is placed. -/
def execPlacementComplete (p : PartId) (slot : Fin 32) (lines : List Line) (s : State) : Result :=
  let sl := (s.part p).slots[slot]
  match s.host.bells.find? (fun b : Doorbell => sl.placing == some b.key) with
  | none => .next s
  | some b =>
    let fin := SoftEnd.placement p slot sl.k
    if s.hostUp && s.halfOpen p sl && sl.fetchOwed = 0 && lines.length = b.lines && !s.softBusy fin then
      .next (s.startSoft (some (s.session b.session.val).act.toNat) (placementWrites sl b lines) [] 2 sl.core.val fin)
    else .next s

/-- PLACEMENT_SUPPRESS (15 R351): after d_k - 8 an unfinished placement is abandoned; its doorbell stays first in line. -/
def execPlacementSuppress (p : PartId) (slot : Fin 32) (s : State) : Result :=
  let sl := (s.part p).slots[slot]
  if sl.placing.isSome && sl.dueCount < (s.part p).count + 8 then
    .next ((s.dropSoft (fun f => f == SoftEnd.placement p slot sl.k)).modSlot p slot (fun x => { x with placing := none, fetchOwed := 0 }))
  else .next s

/-! ## Resets of the host link (15 R342) -/

/-- What a function-level reset of PF0, a conventional reset and a move to D3hot do. -/
def State.hostReset (s : State) : State :=
  let s := s.stopAllAcross.closeSessions (fun _ _ => true)
  { s with host := { s.host with
      act := 0, free := false, hbmEn := 0, spEn := 0, masked := BitVec.allOnes 4096, msixPend := 0, table := [] } }

/-- VF_FLR (15 R342): the sessions of that function close. -/
def execVfFlr (vf : Nat) (s : State) : Result :=
  if s.hostUp && 1 ≤ vf && vf ≤ 64 then .next (s.closeSessions (fun _ x => x.func.toNat == vf)) else .next s

/-- PF0_FLR (15 R342). -/
def execPf0Flr (s : State) : Result := if s.hostUp then .next s.hostReset else .next s

/-- CONVENTIONAL_RESET (15 R342): PERST_N or a conventional reset; the function is in D0 after it. -/
def execConventionalReset (s : State) : Result :=
  if s.mgrUp then let t := s.hostReset; .next { t with host := { t.host with d3hot := false } } else .next s

/-- D3HOT_ENTRY (15 R342). -/
def execD3hotEntry (s : State) : Result :=
  if s.hostUp then let t := s.hostReset; .next { t with host := { t.host with d3hot := true } } else .next s

/-- D0_RETURN (15 R342): the stopped partitions stay stopped. -/
def execD0Return (s : State) : Result :=
  if s.mgrUp && s.host.linkUp then .next { s with host := { s.host with d3hot := false } } else .next s

/-! ## The weir's period (13 R326) -/

/-- The place of a waiting transfer among those of its activity. -/
def placeAmong (l : List (Nat × Transfer)) (i : Nat) : Nat :=
  match l[i]? with
  | some e => ((l.take i).filter (fun x => x.1 == e.1)).length
  | none => 0

/-- Inserts before the first greater key. -/
def insertKeyed {α : Type} (k : Nat) (v : α) : List (Nat × α) → List (Nat × α)
  | [] => [(k, v)]
  | (j, x) :: l => if k < j then (k, v) :: (j, x) :: l else (j, x) :: insertKeyed k v l

/-- The order in which waiting transfers are admitted: by class, within a class round-robin over the activities, each in arrival order. -/
def State.admissionOrder (s : State) : List (Nat × Transfer) :=
  let l := s.asz.waiting
  let keyed := l.zipIdx.map (fun e => (((s.act e.1.1).cls.toNat * 2 ^ 40 + placeAmong l e.2 * 256 + e.1.1), e.1))
  (keyed.foldl (fun o e => insertKeyed e.1 e.2 o) []).map Prod.snd

/-- A transfer that waited and is now admitted whole. -/
def State.admitted (s : State) : Transfer → State
  | .lines _ => s
  | .message m => if m.kind = 1 then s.toService m else s.replyOut m
  | .bell n fn value order tb => s.ringNow n fn value order tb
  | .fetch p i => s.readInput p i
  | .inbound port => { s with asz := { s.asz with passed := s.asz.passed ++ [port] } }

/-- Units of a job that the weir has admitted. -/
def State.creditJob (s : State) (t : Transfer) (k : Nat) : State :=
  match t with
  | .lines id => { s with soft := s.soft.map (fun j : SoftJob => if j.id = id then { j with owed := j.owed - k } else j) }
  | .fetch p i => s.modSlot p i (fun sl => { sl with fetchOwed := sl.fetchOwed - k })
  | _ => s

/-- One waiting transfer meets the new period: its units, as far as the credit goes; it waits no longer once all are admitted. -/
def State.admitOne (s : State) (e : Nat × Transfer) : State :=
  let owed := s.owedUnits e.2
  let k := s.creditFor e.1 owed
  let s := (s.spend e.1 k).creditJob e.2 k
  if k < owed then s else { s with asz := { s.asz with waiting := s.asz.waiting.erase e } }.admitted e.2

/-- A period's waits counted: one for each unit that waits. -/
def State.countWaits (s : State) : State :=
  s.asz.waiting.foldl (fun s e => s.modAct e.1 (fun a => { a with wait := a.wait + BitVec.ofNat 64 (s.owedUnits e.2) })) s

/-- WEIR_PERIOD (13 R326): at a multiple of 1,000 ns every waiting transfer is counted, every credit becomes the budget, and what the credit allows is admitted. -/
def execWeirPeriod (s : State) : Result :=
  let n := s.clk.tb.toNat / 1000
  if n = s.asz.period then .next s
  else
    let s := s.countWaits
    let s := { s with asz := { s.asz with
      period := n, acts := s.asz.acts.map (fun (e : Nat × Activity) => (e.1, { e.2 with credit := e.2.budget.toNat })) } }
    .next ((s.admissionOrder.foldl (fun s e => s.admitOne e) s).serveSoft false)

/-! ## MSI-X (17 R397) -/

/-- A vector unmasked: one message for the occurrences its pending bit collected. -/
def State.unmask (s : State) (v : Nat) : State :=
  let owed := bit s.host.msixPend v
  let s := { s with host := { s.host with masked := setBit s.host.masked v false, msixPend := setBit s.host.msixPend v false } }
  if owed then s.emit (.msix v) else s

/-- MSIX_UNMASK (17 R397). -/
def execMsixUnmask (vec : Fin 4096) (s : State) : Result := if s.hostUp then .next (s.unmask vec.val) else .next s

end Sys2Proof.Machine
end

