-- ==== Sys2Proof/Machine/Registers.lean ====
section
/-! DEFINITION. Registers.lean: what BAR0 reads (15 R343-R345 and the register tables of every chapter), and the meaning of REGISTER_WRITE (00 R11-R13, 01 R24, 15 R344). -/

namespace Sys2Proof.Machine

/-! ## The words that registers read (00 R11) -/

/-- MGR_ASZ_STAT (13 R312). -/
def State.aszStat (s : State) : Nat :=
  let state := fun (p : PartId) => if (s.part p).inrst then 3 else match (s.part p).pstate with
    | .empty => 0
    | .stopped => 1
    | .running => 2
    | .halted => 3
  (allParts.map (fun p => state p * 2 ^ (48 + 2 * p.val))).sum + s.asz.code.toNat * 2 ^ 32 + s.asz.stage.toNat * 2 ^ 28 +
    s.asz.sigFail.toNat * 2 ^ 24 + s.asz.busy.toNat

/-- MGR_TXN_STATp (13 R323). -/
def Part.txnStat (q : Part) : Nat :=
  q.txnIcount.toNat * 2 ^ 16 + q.txnId.val * 2 ^ 8 + q.txnResult.toNat * 2 + q.armed.isSome.toNat

/-- The assize block. -/
def State.aszWord (s : State) (o : Nat) : Nat :=
  if o = 0x00 then s.asz.pmask.toNat * 2 ^ 8
  else if o = 0x08 then s.asz.addr.toNat
  else if o = 0x10 then s.asz.relTb.toNat
  else if o = 0x18 then s.aszStat
  else if o = 0x20 then s.asz.digest.toNat
  else if 0x40 ≤ o && o < 0x80 then (s.part (Fin.ofNat 8 ((o - 0x40) / 8))).txnStat
  else 0

/-- WEIR_ACTn (13 R324). -/
def Activity.word (a : Activity) : Nat := a.owner.toNat * 2 ^ 30 + a.cls.toNat * 2 ^ 28 + a.budget.toNat

/-- The weir block. -/
def State.weirWord (s : State) (o : Nat) : Nat :=
  if o = 0x0FF8 then s.asz.energy.toNat
  else if 0x1000 ≤ o && o < 0x1800 then (s.act ((o - 0x1000) / 8)).word
  else if 0x1800 ≤ o && o < 0x2000 then (s.act ((o - 0x1800) / 8)).wait.toNat
  else 0

/-- PWR_OSC_STAT (12 R288). -/
def ClockUnit.oscStat (k : ClockUnit) : Nat :=
  k.excur.toNat * 2 ^ 48 + k.lowest.toNat * 2 ^ 38 + (match k.change with | some x => x.started.toNat | none => 0) * 2 ^ 36 +
    k.target.toNat * 2 ^ 24 + k.shownMhz.toNat * 2 ^ 12

/-- The power block. -/
def State.powWord (s : State) (o : Nat) : Nat :=
  if o = 0x00 then s.pow.stat
  else if o = 0x08 then s.pow.pinWord
  else if o = 0x10 then s.pow.headWord
  else if o = 0x18 then s.pow.tempWord
  else if o = 0x100 then s.clk.oscStat
  else if o = 0x108 then s.clk.cycle.toNat
  else 0

/-- MGR_RR_STAT (12 R303). -/
def RecordUnit.stat (r : RecordUnit) : Nat :=
  r.lost.toNat * 2 ^ 40 + r.incomplete.toNat * 2 ^ 39 + r.diverged.toNat * 2 ^ 38 + r.bytes.toNat

/-- The time and recording block. -/
def State.timeWord (s : State) (o : Nat) : Nat :=
  if o = 0x00 then s.clk.shadow.toNat * 2 ^ 32 + s.clk.tb.toNat % 2 ^ 32
  else if o = 0x08 then (s.clk.refLoss.toNat * 2 + s.clk.refBad.toNat) * 2 ^ 32 + s.clk.adj.toNat
  else if o = 0x20 then s.clk.stretchNet.toNat * 2 ^ 32 + s.clk.stretchMgr.toNat
  else if o = 0x100 then s.rr.rrCnt.toNat * 2 ^ 32 + s.rr.rrBase.toNat * 2 ^ 24 + s.rr.part.val * 2 ^ 4 + s.rr.mode.toNat
  else if o = 0x108 then s.rr.stat
  else if o = 0x110 then s.rr.div.toNat
  else 0

/-- HST_WINCTL (15 R346). -/
def HostUnit.winctl (h : HostUnit) : Nat :=
  h.act.toNat * 2 ^ 24 + h.free.toNat * 2 ^ 16 + h.hbmEn.toNat * 2 ^ 8 + h.spEn.toNat

/-- FAB_PORTn_STAT (15 R363). -/
def Port.stat (q : Port) : Nat := q.epoch.toNat * 2 ^ 56 + q.lreset.toNat * 2 ^ 40 + q.replay.toNat * 2 ^ 8 + q.up.toNat

/-- The fabric block. -/
def State.fabWord (s : State) (o : Nat) : Nat :=
  if o < 0x200 && o % 0x40 = 0 then (s.fab.ports[(Fin.ofNat 8 (o / 0x40) : PortId)]).stat
  else if o = 0x400 then s.fab.tbOfs.toNat
  else 0

/-- A word of a vector's entry in its MSI-X table: address, then data and the Mask bit (15 R343; the layout is PCIe's, PRESUMED, log 6). -/
def HostUnit.entryWord (h : HostUnit) (v o : Nat) : Nat :=
  let e := (h.table.lookup v).getD 0
  if o % 16 = 0 then (e.extractLsb' 0 64).toNat else (e.extractLsb' 64 32).toNat + (bit h.masked v).toNat * 2 ^ 32

/-- PF0's MSI-X table and pending-bit array. -/
def HostUnit.msixWord (h : HostUnit) (o : Nat) : Nat :=
  if o < 0x8000 then h.entryWord (o / 16) o
  else if o < 0x8100 then (h.msixPend.extractLsb' (8 * (o - 0x8000)) 64).toNat
  else 0

/-- The event recorder block (17 R386, R394). -/
def State.evrWord (s : State) (o : Nat) : Nat :=
  let lost := fun (n : Nat) => (allSev.map (fun k => if k.val / 4 = n then s.ev.lost[k].toNat * 2 ^ (16 * (k.val % 4)) else 0)).sum
  if o = 0x00 then s.ev.store.length * 2 ^ 48 + s.ev.nextSeq.toNat
  else if o = 0x08 then lost 0
  else if o = 0x10 then lost 1
  else if o = 0x18 then s.ev.rdSeq.toNat
  else if o = 0x20 then (match s.ev.latched with | some r => 2 ^ 63 + r.seq.toNat | none => 0)
  else if o = 0x40 then s.fab.d2dEpoch.toNat * 2 ^ 56 + s.fab.d2dResets.toNat * 2 ^ 40 + s.fab.d2dRetries.toNat
  else if 0x100 ≤ o && o < 0x200 then
    (match s.ev.latched with | some r => leNat ((r.slot.drop (o - 0x100)).take 8) | none => 0)
  else 0

/-- The security block (16 R370, R382). -/
def State.secWord (s : State) (o : Nat) : Nat :=
  if o = 0x00 then s.sec.lcsWord
  else if o = 0x08 then s.sec.alarmWord
  else if o = 0x10 then s.sec.bootWord
  else if o = 0x100 then (allParts.map (fun p => (s.part p).inrst.toNat * 2 ^ (24 + p.val))).sum + s.sec.rstPmask.toNat * 2 ^ 8
  else 0

/-- A core's control block (03 R75; 04 R85, R90, R96, R103; 05 R133; 07 R175; 08 R216; 09 R235; 10 R257; 11 R267, R282). -/
def Core.word (k : Core) (o : Nat) : Nat :=
  let eight := fun (v : Vector (BitVec 8) 48) (n : Nat) =>
    ((List.range 8).map (fun j => if h : 8 * n + j < 48 then v[8 * n + j].toNat * 2 ^ (8 * j) else 0)).sum
  if 0x400 ≤ o && o < 0x428 then leNat ((k.halt.bytes.drop (o - 0x400)).take 8)
  else if 0x800 ≤ o && o < 0x880 then (k.cfg.region[(Fin.ofNat 16 ((o - 0x800) / 8) : Fin 16)]).toNat
  else if 0x900 ≤ o && o < 0x930 then eight k.syn.cap ((o - 0x900) / 8)
  else if 0x940 ≤ o && o < 0x970 then eight k.syn.s ((o - 0x940) / 8)
  else if o = 0x980 then k.syn.scope.toNat
  else if o = 0x988 then k.syn.tmout.toNat * 2 ^ 48 + k.syn.wcyc.toNat
  else if o = 0xA00 then k.cfg.tshape0.toNat
  else if o = 0xA08 then k.cfg.tshape1.toNat
  else if o = 0xA10 then k.cfg.legacy.toNat
  else if 0xB00 ≤ o && o < 0xB40 then
    let e := k.mx[(Fin.ofNat 4 ((o - 0xB00) / 16) : EngId)]
    if o % 16 = 0 then e.kcyc.toNat else e.zblk.toNat
  else if o = 0xB80 then k.vec.flags.toNat
  else if o = 0xC00 then k.cfg.scrubPasses.toNat * 2 ^ 48 + k.cfg.tileCe.toNat * 2 ^ 40 + k.cfg.ue.toNat * 2 ^ 32 + k.cfg.ce.toNat
  else if o = 0xC20 then k.str.dropped.toNat * 2 ^ 48 + k.str.lag.toNat
  else if o = 0xC28 then k.str.late.toNat
  else if o = 0xC30 then k.str.sdesc.toNat
  else if o = 0xC38 then k.str.overrun.toNat * 2 ^ 48 + k.str.skipped.toNat * 2 ^ 24 + k.str.clamped.toNat
  else if o = 0xC40 then k.str.coll.toNat
  else if o = 0xD00 then
    k.mu.fab.toNat * 2 ^ 32 + k.mu.peers.toNat * 2 ^ 24 + k.mu.c0res.toNat * 2 ^ 16 + k.mu.rpDepth.toNat * 2 ^ 8 + k.mu.rqDepth.toNat
  else if o = 0xD08 then
    k.mu.extra.toNat * 2 ^ 48 + k.mu.auto.toNat * 2 ^ 32 + k.mu.nakRx.toNat * 2 ^ 16 + k.mu.closedTx.toNat
  else if 0x2000 ≤ o && o < 0x3000 then ((k.cfg.hnd.lookup ((o - 0x2000) / 8)).getD 0).toNat
  else 0

/-- A partition's counter block (12 R299). -/
def Part.word (q : Part) (o : Nat) : Nat :=
  ((([q.icount, q.cyc, q.total, q.halt, q.late, q.retry, q.gover, q.fref, q.pend, q.tb0, q.tbEnd] : List (BitVec 64))[o / 8]?).getD 0).toNat

/-- The compute-die control registers, by offset in their window. -/
def State.dieWord (s : State) (o : Nat) : Nat :=
  if o < 0x400000 then
    let k : CoreId := Fin.ofNat 64 (o / 0x10000)
    if s.enabled k then (s.core k).word (o % 0x10000) else 0
  else if 0x800000 ≤ o && o < 0x808000 then (s.part (Fin.ofNat 8 ((o - 0x800000) / 0x1000))).word (o % 0x1000)
  else if 0x1000000 ≤ o && o < 0x1060000 then
    let stack : Fin 6 := Fin.ofNat 6 ((o - 0x1000000) / 0x10000)
    let r := o % 0x10000
    if !s.grade.fitted stack.val then 0
    else if r = 0x100 then (s.hbm[stack]).ue.toNat * 2 ^ 48 + (s.hbm[stack]).ce.toNat
    else if 0x200 ≤ r && r < 0x400 then
      let q := (s.pcs.lookup (64 * stack.val + (r - 0x200) / 8)).getD .reset
      q.missed.toNat * 2 ^ 48 + q.inserted.toNat * 2 ^ 32 + q.refreshes.toNat
    else 0
  else 0

/-- What the eight bytes at an offset of BAR0 read; reserved offsets read 0 (15 R343, R344). -/
def State.bar0Word (s : State) (off : Nat) : Nat :=
  if off < 0x10000 then (if off = 0 then s.idWord else 0)
  else if off < 0x20000 then s.aszWord (off - 0x10000)
  else if off < 0x30000 then s.weirWord (off - 0x20000)
  else if off < 0x40000 then s.powWord (off - 0x30000)
  else if off < 0x50000 then s.timeWord (off - 0x40000)
  else if off < 0x60000 then (if off = 0x50000 then s.host.winctl else 0)
  else if off < 0x70000 then s.fabWord (off - 0x60000)
  else if 0x200000 ≤ off && off < 0x210000 then s.host.msixWord (off - 0x200000)
  else if 0x400000 ≤ off && off < 0x440000 then
    ((s.session ((off - 0x400000) / 64)).word (off % 64 / 8)).toNat
  else if 0x800000 ≤ off && off < 0x810000 then s.evrWord (off - 0x800000)
  else if 0x900000 ≤ off && off < 0x910000 then s.secWord (off - 0x900000)
  else if 0x2000000 ≤ off then s.dieWord (off - 0x2000000)
  else 0

/-- An aligned read of 4 B or 8 B of a register space; none for any other. -/
def readPart (word : Nat → Nat) (off size : Nat) : Option Nat :=
  if size = 8 && off % 8 = 0 then some (word off)
  else if size = 4 && off % 4 = 0 then some (word (off / 8 * 8) / 2 ^ (8 * (off % 8)) % 2 ^ 32)
  else none

/-- An aligned read of 4 B or 8 B of BAR0; none: Unsupported Request (15 R344). -/
def State.bar0Read (s : State) (off size : Nat) : Option Nat := if !s.hostUp then none else readPart s.bar0Word off size

/-- The same registers as MCTP reads them (00 R11, 12 R288). -/
def State.mctpRead (s : State) (off size : Nat) : Option Nat :=
  if !s.mgrUp || s.sec.bootFail then none else readPart s.bar0Word off size

/-- What a VF's BAR0 reads: its MSI-X table of 32 vectors and its pending bits; doorbells read 0 (15 R342). -/
def State.vfWord (s : State) (vf off : Nat) : Nat :=
  if 0x100000 ≤ off && off < 0x100200 then s.host.entryWord (vectorOf vf ((off - 0x100000) / 16)) off
  else if off = 0x100800 then ((s.host.msixPend.extractLsb' (vectorOf vf 0) 32).toNat)
  else 0

/-- An aligned read of a VF's BAR0. -/
def State.vfRead (s : State) (vf off size : Nat) : Option Nat := if !s.hostUp then none else readPart (s.vfWord vf) off size

/-- A control-plane read of a tile register line by its alias, while its core's partition is stopped (04 R77, R102). -/
def State.aliasRead (s : State) (a : Nat) : Option Line :=
  match aliasOf a with
  | some (c, _, _, _) => if (s.liveOf c).isNone then some (s.line a) else none
  | none => none

/-! ## Writes (00 R11-R13, 15 R344) -/

/-- The half that an aligned write gives to the low 32 bits of a 64-bit register. -/
def lowHalf (off size : Nat) (value : BitVec 64) : Option (BitVec 32) :=
  if (size = 8 || size = 4) && off % 8 = 0 then some (value.extractLsb' 0 32) else none

/-- A write of a field of MGR_ASZ_CMD: PMASK, and CMD's action. LOAD and ARM begin with the read of their image, which the command of that name brings (13 R312; DESIGN CHOICE, log 66). -/
def State.writeAszCmd (s : State) (req : Requester) (w : BitVec 32) : State :=
  if s.asz.busy then s.errorTo req
  else
    let pmask := w.extractLsb' 8 8
    let s := { s with asz := { s.asz with pmask := pmask } }
    match fld w 3 0 with
    | 1 => s.startImage req 1
    | 2 => s.releaseCmd req pmask
    | 3 => s.stopCmd req pmask
    | 4 => s.startImage req 4
    | 5 => s.cancelCmd req pmask
    | _ => s

/-- The assize block written. -/
def State.writeAsz (s : State) (req : Requester) (off size : Nat) (value : BitVec 64) : State :=
  let o := (off - 0x10000) / 8 * 8
  if o = 0x00 then
    match lowHalf off size value with
    | some w => s.writeAszCmd req w
    | none => s
  else if o = 0x08 then
    match mergeWrite s.asz.addr off size value with
    | some w => { s with asz := { s.asz with addr := w } }
    | none => s
  else if o = 0x10 then
    match mergeWrite s.asz.relTb off size value with
    | some w => { s with asz := { s.asz with relTb := w } }
    | none => s
  else s

/-- Whether a W1C bit stays set under a write: it is not written 1, or the part has set it in the same cycle (00 R12). -/
def State.keptBit (s : State) (b : StickyBit) (one : Bool) : Bool := !one || s.justSet.contains b

/-- The power block written: VIN_LOW and VIN_HIGH are W1C (14 R337), CLR of PWR_OSC_STAT acts (12 R288). -/
def State.writePow (s : State) (off size : Nat) (value : BitVec 64) : State :=
  let o := (off - 0x30000) / 8 * 8
  if o = 0x00 then
    match lowHalf off size value with
    | some w => { s with pow := { s.pow with
        vinHigh := s.pow.vinHigh && s.keptBit .vinHigh (bit w 5), vinLow := s.pow.vinLow && s.keptBit .vinLow (bit w 4) } }
    | none => s
  else if o = 0x100 then
    match highHalf off size value with
    | some h => if bit h 5 then s.oscClear else s
    | none => s
  else s

/-- TB_STAT's bits are W1C; the part sets REFLOSS again while the reference is lost (12 R298); MGR_RR_CTL acts (12 R300). -/
def State.writeTime (s : State) (req : Requester) (off size : Nat) (value : BitVec 64) : State :=
  let o := (off - 0x40000) / 8 * 8
  if o = 0x08 then
    match highHalf off size value with
    | some h => { s with clk := { s.clk with
        refLoss := (s.clk.refLoss && s.keptBit .refLoss (bit h 1)) || s.clk.refLost
        refBad := s.clk.refBad && s.keptBit .refBad (bit h 0) } }
    | none => s
  else if o = 0x100 then
    match lowHalf off size value with
    | some w => s.rrCtl req (Fin.ofNat 8 (fld w 6 4)) (fld w 1 0)
    | none => s
  else s

/-- HST_WINCTL written (15 R346). -/
def State.writeWinctl (s : State) (off size : Nat) (value : BitVec 64) : State :=
  if off / 8 * 8 = 0x50000 then
    match lowHalf off size value with
    | some w => { s with host := { s.host with
        act := w.extractLsb' 24 8, free := bit w 16, hbmEn := w.extractLsb' 8 8, spEn := w.extractLsb' 0 8 } }
    | none => s
  else s

/-- The entry of a vector in an MSI-X table written, at byte o of its table: address, data, and the Mask bit, whose clearing sends what is pending (17 R397). -/
def State.writeMsix (s : State) (v o off size : Nat) (value : BitVec 64) : State :=
  match mergeWrite (BitVec.ofNat 64 (s.host.entryWord v o)) off size value with
    | none => s
    | some w =>
      let e := (s.host.table.lookup v).getD 0
      let e' : BitVec 96 := if o % 16 = 0 then e.extractLsb' 64 32 ++ w else w.extractLsb' 0 32 ++ e.extractLsb' 0 64
      let s := { s with host := { s.host with
        table := if e' = 0 then s.host.table.filter (fun x => x.1 != v) else putKey v e' s.host.table } }
      if o % 16 = 0 then s
      else if bit w 32 then { s with host := { s.host with masked := setBit s.host.masked v true } }
      else if bit s.host.masked v then s.unmask v
      else s

/-- The security block written: TRIG is W1C (16 R382), MGR_RST acts when the write covers KEY and CMD (16 R370). -/
def State.writeSec (s : State) (req : Requester) (off size : Nat) (value : BitVec 64) : State :=
  let o := (off - 0x900000) / 8 * 8
  if o = 0x08 then
    match lowHalf off size value with
    | some w => { s with sec := { s.sec with
        trig := (List.range 5).foldl (fun t i => if s.keptBit (.trig i) (bit w i) then t else setBit t i false) s.sec.trig } }
    | none => s
  else if o = 0x100 then
    if size = 8 && off % 8 = 0 && value.extractLsb' 32 32 = 0xA5A55A5A then
      let pmask := value.extractLsb' 8 8
      let s := { s with sec := { s.sec with rstPmask := pmask } }
      match fld value 3 0 with
      | 1 => s.warmReset 3
      | 2 => s.partitionResets pmask
      | 3 => s.coldCommand
      | _ => s
    else s.errorTo req
  else s

/-- Offsets of a core's block that hold its configuration (13 R310). -/
def configOffset (o : Nat) : Bool :=
  (0x800 ≤ o && o < 0x880) || (0x900 ≤ o && o < 0x930) || o = 0x980 || (0xA00 ≤ o && o < 0xA18) || o = 0xD00 || (0x2000 ≤ o && o < 0x3000)

/-- The compute-die control registers written: the configuration of a core whose partition runs or stands halted is refused (01 R24); every other field ignores writes (00 R11). -/
def State.writeDie (s : State) (req : Requester) (off : Nat) : State :=
  let o := (off - 0x2000000) / 8 * 8
  let k : CoreId := Fin.ofNat 64 (o / 0x10000)
  if o < 0x400000 && s.enabled k && configOffset (o % 0x10000) then
    match s.partOf k with
    | some p => if (s.part p).live then s.ctrlRefused req (0xF000000000 + o) (some p) (some k) else s
    | none => s
  else s

/-- A write of BAR0's registers by a requester. -/
def State.regWrite (s : State) (req : Requester) (off size : Nat) (value : BitVec 64) : State :=
  if 0x10000 ≤ off && off < 0x20000 then s.writeAsz req off size value
  else if 0x30000 ≤ off && off < 0x40000 then s.writePow off size value
  else if 0x40000 ≤ off && off < 0x50000 then s.writeTime req off size value
  else if 0x50000 ≤ off && off < 0x60000 then s.writeWinctl off size value
  else if 0x100000 ≤ off && off < 0x200000 then
    (if off % 256 = 0 || off % 256 = 4 then s.ring (Fin.ofNat 4096 ((off - 0x100000) / 256)) 0 (if off % 256 = 0 then size else 4) value else s)
  else if 0x200000 ≤ off && off < 0x208000 then s.writeMsix ((off - 0x200000) / 16) (off / 8 * 8) off size value
  else if 0x400000 ≤ off && off < 0x440000 then s.sesWrite ((off - 0x400000) / 64) (off % 64) size value
  else if off / 8 * 8 = 0x800018 then s.evrRdseq off size value
  else if 0x900000 ≤ off && off < 0x910000 then s.writeSec req off size value
  else if 0x2000000 ≤ off then s.writeDie req off
  else s

/-- A write of a VF's BAR0: a doorbell, or its MSI-X table (15 R342, R350). -/
def State.vfRegWrite (s : State) (vf off size : Nat) (value : BitVec 64) : State :=
  if off < 0x100000 then
    (if off % 256 = 0 || off % 256 = 4 then s.ring (Fin.ofNat 4096 (off / 256)) vf (if off % 256 = 0 then size else 4) value else s)
  else if off < 0x100200 then s.writeMsix (vectorOf vf ((off - 0x100000) / 16)) (off / 8 * 8) off size value
  else s

/-- Whether a requester's register writes reach the manager die. -/
def State.writeReaches (s : State) (req : Requester) : Bool :=
  match req with
  | .host => s.hostUp
  | .fabric => s.mgrUp && s.fab.cfg.role == 2
  | .mctp => s.mgrUp && !s.sec.bootFail

/-- Whether a write lies on a doorbell, which refuses other sizes itself (15 R350). -/
def onDoorbell (fn off : Nat) : Bool :=
  if fn = 0 then 0x100000 ≤ off && off < 0x200000 && off % 256 < 8 else off < 0x100000 && off % 256 < 8

/-- REGISTER_WRITE (00 R11-R13, 15 R342, R344): RW fields are set, W1C bits cleared, command fields act, RO, AZ and reserved fields and offsets ignored; a write of another size or alignment is dropped, on a doorbell refused. A host's write goes through the BAR0 of its function. -/
def execRegisterWrite (req : Requester) (off : BarOffset) (size : Nat) (value : BitVec 64) (s : State) : Result :=
  let fn := off.fn
  let o := off.off.toNat
  if !s.writeReaches req || 64 < fn || (fn ≠ 0 && req ≠ .host) then .next s
  else if onDoorbell fn o && !((size = 4 || size = 8) && o % size = 0) then
    .next (s.ring (Fin.ofNat 4096 ((if fn = 0 then o - 0x100000 else o) / 256)) fn 0 value)
  else if (size = 4 || size = 8) && o % size = 0 then .next (if fn = 0 then s.regWrite req o size value else s.vfRegWrite fn o size value)
  else .next s

end Sys2Proof.Machine
end

