-- ==== Sys2Proof/Machine/Dispatch.lean ====
section
/-! DEFINITION. Dispatch.lean: one arm per command, each a direct call of its meaning. -/

namespace Sys2Proof.Machine

def exec (i : Instr) (s : State) : Host.Outcome State Fault Refusal :=
  match i with
  | .bundleIssue p errs => Sys2Proof.Machine.execBundleIssue p errs s
  | .nop core slot => Sys2Proof.Machine.execNop core slot s
  | .halt core w => Sys2Proof.Machine.execHalt core w s
  | .fin core w => Sys2Proof.Machine.execFin core w s
  | .cset core w => Sys2Proof.Machine.execCset core w s
  | .cadd core w => Sys2Proof.Machine.execCadd core w s
  | .caddc core w => Sys2Proof.Machine.execCaddc core w s
  | .psetl core w => Sys2Proof.Machine.execPsetl core w s
  | .pseth core w => Sys2Proof.Machine.execPseth core w s
  | .padd core w => Sys2Proof.Machine.execPadd core w s
  | .pmac core w => Sys2Proof.Machine.execPmac core w s
  | .kcmpc core w => Sys2Proof.Machine.execKcmpc core w s
  | .kcmpcc core w => Sys2Proof.Machine.execKcmpcc core w s
  | .kcmpp core w => Sys2Proof.Machine.execKcmpp core w s
  | .kset core w => Sys2Proof.Machine.execKset core w s
  | .kop core w => Sys2Proof.Machine.execKop core w s
  | .br core w => Sys2Proof.Machine.execBr core w s
  | .bk core w => Sys2Proof.Machine.execBk core w s
  | .bp core w => Sys2Proof.Machine.execBp core w s
  | .rep core w => Sys2Proof.Machine.execRep core w s
  | .sluiceHoldStart p => Sys2Proof.Machine.execSluiceHoldStart p s
  | .heldCycle p => Sys2Proof.Machine.execHeldCycle p s
  | .holdRelease p => Sys2Proof.Machine.execHoldRelease p s
  | .schn core w => Sys2Proof.Machine.execSchn core w s
  | .chainLatchStart core slot => Sys2Proof.Machine.execChainLatchStart core slot s
  | .descriptorLineRead core slot ecc => Sys2Proof.Machine.execDescriptorLineRead core slot ecc s
  | .blockIssue core slot => Sys2Proof.Machine.execBlockIssue core slot s
  | .blockLagIssue core => Sys2Proof.Machine.execBlockLagIssue core s
  | .stile core w => Sys2Proof.Machine.execStile core w s
  | .sttx1 core w => Sys2Proof.Machine.execSttx1 core w s
  | .sttx2 core w => Sys2Proof.Machine.execSttx2 core w s
  | .sttx4 core w => Sys2Proof.Machine.execSttx4 core w s
  | .sref core w => Sys2Proof.Machine.execSref core w s
  | .lineAccess core blk ecc => Sys2Proof.Machine.execLineAccess core blk ecc s
  | .lineArrival core blk => Sys2Proof.Machine.execLineArrival core blk s
  | .lineWrite core blk => Sys2Proof.Machine.execLineWrite core blk s
  | .lateSourceAccess core blk ecc => Sys2Proof.Machine.execLateSourceAccess core blk ecc s
  | .lateLineWrite core blk => Sys2Proof.Machine.execLateLineWrite core blk s
  | .stagingFreeSend core => Sys2Proof.Machine.execStagingFreeSend core s
  | .transposeLineRelease core blk => Sys2Proof.Machine.execTransposeLineRelease core blk s
  | .quadrantLineRelease core blk => Sys2Proof.Machine.execQuadrantLineRelease core blk s
  | .mxsLineRelease core blk => Sys2Proof.Machine.execMxsLineRelease core blk s
  | .indexLineRead core blk ecc => Sys2Proof.Machine.execIndexLineRead core blk ecc s
  | .indexExamine core blk => Sys2Proof.Machine.execIndexExamine core blk s
  | .gatherTurn core blk ecc => Sys2Proof.Machine.execGatherTurn core blk ecc s
  | .indexedWrite core blk => Sys2Proof.Machine.execIndexedWrite core blk s
  | .hbmQueueEntry stack idx => Sys2Proof.Machine.execHbmQueueEntry stack idx s
  | .hbmRequestStart stack idx => Sys2Proof.Machine.execHbmRequestStart stack idx s
  | .hbmReadReady stack idx ecc => Sys2Proof.Machine.execHbmReadReady stack idx ecc s
  | .hbmWriteDone stack idx => Sys2Proof.Machine.execHbmWriteDone stack idx s
  | .normalRefresh stack idx => Sys2Proof.Machine.execNormalRefresh stack idx s
  | .safetyNetRefresh stack idx => Sys2Proof.Machine.execSafetyNetRefresh stack idx s
  | .refreshDone stack idx => Sys2Proof.Machine.execRefreshDone stack idx s
  | .scrubRead core ecc => Sys2Proof.Machine.execScrubRead core ecc s
  | .scrubWriteback core => Sys2Proof.Machine.execScrubWriteback core s
  | .mmaI8I8 core eng w => Sys2Proof.Machine.execMmaI8I8 core eng w s
  | .mmaI8I4 core eng w => Sys2Proof.Machine.execMmaI8I4 core eng w s
  | .mmaI4I8 core eng w => Sys2Proof.Machine.execMmaI4I8 core eng w s
  | .mmaI4I4 core eng w => Sys2Proof.Machine.execMmaI4I4 core eng w s
  | .mmaE4E4 core eng w => Sys2Proof.Machine.execMmaE4E4 core eng w s
  | .mmaE4E5 core eng w => Sys2Proof.Machine.execMmaE4E5 core eng w s
  | .mmaE5E4 core eng w => Sys2Proof.Machine.execMmaE5E4 core eng w s
  | .mmaE5E5 core eng w => Sys2Proof.Machine.execMmaE5E5 core eng w s
  | .mmaE4F4 core eng w => Sys2Proof.Machine.execMmaE4F4 core eng w s
  | .mmaF4E4 core eng w => Sys2Proof.Machine.execMmaF4E4 core eng w s
  | .mmaE5F4 core eng w => Sys2Proof.Machine.execMmaE5F4 core eng w s
  | .mmaF4E5 core eng w => Sys2Proof.Machine.execMmaF4E5 core eng w s
  | .mmaF4F4 core eng w => Sys2Proof.Machine.execMmaF4F4 core eng w s
  | .mmaBf16 core eng w => Sys2Proof.Machine.execMmaBf16 core eng w s
  | .mmaFp16 core eng w => Sys2Proof.Machine.execMmaFp16 core eng w s
  | .mmaFp32 core eng w => Sys2Proof.Machine.execMmaFp32 core eng w s
  | .cmmaI8 core eng w => Sys2Proof.Machine.execCmmaI8 core eng w s
  | .cmmaE4 core eng w => Sys2Proof.Machine.execCmmaE4 core eng w s
  | .cmmaE5 core eng w => Sys2Proof.Machine.execCmmaE5 core eng w s
  | .smma4I8I8 core eng w => Sys2Proof.Machine.execSmma4I8I8 core eng w s
  | .smma4I8I4 core eng w => Sys2Proof.Machine.execSmma4I8I4 core eng w s
  | .smma4I4I8 core eng w => Sys2Proof.Machine.execSmma4I4I8 core eng w s
  | .smma4I4I4 core eng w => Sys2Proof.Machine.execSmma4I4I4 core eng w s
  | .smma4E4E4 core eng w => Sys2Proof.Machine.execSmma4E4E4 core eng w s
  | .smma4E4E5 core eng w => Sys2Proof.Machine.execSmma4E4E5 core eng w s
  | .smma4E5E4 core eng w => Sys2Proof.Machine.execSmma4E5E4 core eng w s
  | .smma4E5E5 core eng w => Sys2Proof.Machine.execSmma4E5E5 core eng w s
  | .smma4E4F4 core eng w => Sys2Proof.Machine.execSmma4E4F4 core eng w s
  | .smma4F4E4 core eng w => Sys2Proof.Machine.execSmma4F4E4 core eng w s
  | .smma4E5F4 core eng w => Sys2Proof.Machine.execSmma4E5F4 core eng w s
  | .smma4F4E5 core eng w => Sys2Proof.Machine.execSmma4F4E5 core eng w s
  | .smma4F4F4 core eng w => Sys2Proof.Machine.execSmma4F4F4 core eng w s
  | .smma2I8I8 core eng w => Sys2Proof.Machine.execSmma2I8I8 core eng w s
  | .smma2I8I4 core eng w => Sys2Proof.Machine.execSmma2I8I4 core eng w s
  | .smma2I4I8 core eng w => Sys2Proof.Machine.execSmma2I4I8 core eng w s
  | .smma2I4I4 core eng w => Sys2Proof.Machine.execSmma2I4I4 core eng w s
  | .smma2E4E4 core eng w => Sys2Proof.Machine.execSmma2E4E4 core eng w s
  | .smma2E4E5 core eng w => Sys2Proof.Machine.execSmma2E4E5 core eng w s
  | .smma2E5E4 core eng w => Sys2Proof.Machine.execSmma2E5E4 core eng w s
  | .smma2E5E5 core eng w => Sys2Proof.Machine.execSmma2E5E5 core eng w s
  | .smma2E4F4 core eng w => Sys2Proof.Machine.execSmma2E4F4 core eng w s
  | .smma2F4E4 core eng w => Sys2Proof.Machine.execSmma2F4E4 core eng w s
  | .smma2E5F4 core eng w => Sys2Proof.Machine.execSmma2E5F4 core eng w s
  | .smma2F4E5 core eng w => Sys2Proof.Machine.execSmma2F4E5 core eng w s
  | .smma2F4F4 core eng w => Sys2Proof.Machine.execSmma2F4F4 core eng w s
  | .lmmaI8I8 core eng w => Sys2Proof.Machine.execLmmaI8I8 core eng w s
  | .lmmaI8I4 core eng w => Sys2Proof.Machine.execLmmaI8I4 core eng w s
  | .lmmaI4I8 core eng w => Sys2Proof.Machine.execLmmaI4I8 core eng w s
  | .lmmaI4I4 core eng w => Sys2Proof.Machine.execLmmaI4I4 core eng w s
  | .lmmaE4E4 core eng w => Sys2Proof.Machine.execLmmaE4E4 core eng w s
  | .lmmaE4E5 core eng w => Sys2Proof.Machine.execLmmaE4E5 core eng w s
  | .lmmaE5E4 core eng w => Sys2Proof.Machine.execLmmaE5E4 core eng w s
  | .lmmaE5E5 core eng w => Sys2Proof.Machine.execLmmaE5E5 core eng w s
  | .lmmaE4F4 core eng w => Sys2Proof.Machine.execLmmaE4F4 core eng w s
  | .lmmaF4E4 core eng w => Sys2Proof.Machine.execLmmaF4E4 core eng w s
  | .lmmaE5F4 core eng w => Sys2Proof.Machine.execLmmaE5F4 core eng w s
  | .lmmaF4E5 core eng w => Sys2Proof.Machine.execLmmaF4E5 core eng w s
  | .lmmaF4F4 core eng w => Sys2Proof.Machine.execLmmaF4F4 core eng w s
  | .lmmaBf16 core eng w => Sys2Proof.Machine.execLmmaBf16 core eng w s
  | .lmmaFp16 core eng w => Sys2Proof.Machine.execLmmaFp16 core eng w s
  | .lmmaFp32 core eng w => Sys2Proof.Machine.execLmmaFp32 core eng w s
  | .lcmmaI8 core eng w => Sys2Proof.Machine.execLcmmaI8 core eng w s
  | .lcmmaE4 core eng w => Sys2Proof.Machine.execLcmmaE4 core eng w s
  | .lcmmaE5 core eng w => Sys2Proof.Machine.execLcmmaE5 core eng w s
  | .accWrite core eng => Sys2Proof.Machine.execAccWrite core eng s
  | .mrql core eng w => Sys2Proof.Machine.execMrql core eng w s
  | .mdrn core eng w => Sys2Proof.Machine.execMdrn core eng w s
  | .drainChunkPresent core eng => Sys2Proof.Machine.execDrainChunkPresent core eng s
  | .vmov core w => Sys2Proof.Machine.execVmov core w s
  | .vmovi core w => Sys2Proof.Machine.execVmovi core w s
  | .vsel core w => Sys2Proof.Machine.execVsel core w s
  | .vadd core w => Sys2Proof.Machine.execVadd core w s
  | .vsub core w => Sys2Proof.Machine.execVsub core w s
  | .vmul core w => Sys2Proof.Machine.execVmul core w s
  | .vfma core w => Sys2Proof.Machine.execVfma core w s
  | .vmin core w => Sys2Proof.Machine.execVmin core w s
  | .vmax core w => Sys2Proof.Machine.execVmax core w s
  | .vabs core w => Sys2Proof.Machine.execVabs core w s
  | .vneg core w => Sys2Proof.Machine.execVneg core w s
  | .vand core w => Sys2Proof.Machine.execVand core w s
  | .vor core w => Sys2Proof.Machine.execVor core w s
  | .vxor core w => Sys2Proof.Machine.execVxor core w s
  | .vshl core w => Sys2Proof.Machine.execVshl core w s
  | .vshr core w => Sys2Proof.Machine.execVshr core w s
  | .vsra core w => Sys2Proof.Machine.execVsra core w s
  | .vcmp core w => Sys2Proof.Machine.execVcmp core w s
  | .qop core w => Sys2Proof.Machine.execQop core w s
  | .vcvt core w => Sys2Proof.Machine.execVcvt core w s
  | .vdq core w => Sys2Proof.Machine.execVdq core w s
  | .vqg core w => Sys2Proof.Machine.execVqg core w s
  | .vsf core w => Sys2Proof.Machine.execVsf core w s
  | .vred core w => Sys2Proof.Machine.execVred core w s
  | .vld core w => Sys2Proof.Machine.execVld core w s
  | .vst core w => Sys2Proof.Machine.execVst core w s
  | .vflgr core w => Sys2Proof.Machine.execVflgr core w s
  | .vflgc core w => Sys2Proof.Machine.execVflgc core w s
  | .vectorResultWrite core errs => Sys2Proof.Machine.execVectorResultWrite core errs s
  | .ssig core tgt w => Sys2Proof.Machine.execSsig core tgt w s
  | .srel core w => Sys2Proof.Machine.execSrel core w s
  | .swait core w => Sys2Proof.Machine.execSwait core w s
  | .cfl core w => Sys2Proof.Machine.execCfl core w s
  | .cwt core w => Sys2Proof.Machine.execCwt core w s
  | .waitTimeout core => Sys2Proof.Machine.execWaitTimeout core s
  | .signalArrival core => Sys2Proof.Machine.execSignalArrival core s
  | .barrierRootArrival core id => Sys2Proof.Machine.execBarrierRootArrival core id s
  | .barrierCompletionSend p id => Sys2Proof.Machine.execBarrierCompletionSend p id s
  | .barrierCompletionArrival core id => Sys2Proof.Machine.execBarrierCompletionArrival core id s
  | .spanCompletionDue p id => Sys2Proof.Machine.execSpanCompletionDue p id s
  | .msreq core w => Sys2Proof.Machine.execMsreq core w s
  | .mrecv core w => Sys2Proof.Machine.execMrecv core w s
  | .mtxq core w => Sys2Proof.Machine.execMtxq core w s
  | .mtxc core w => Sys2Proof.Machine.execMtxc core w s
  | .requestEnqueue n => Sys2Proof.Machine.execRequestEnqueue n s
  | .replyEnqueue n => Sys2Proof.Machine.execReplyEnqueue n s
  | .handlerDispatch core => Sys2Proof.Machine.execHandlerDispatch core s
  | .handlerSignal core => Sys2Proof.Machine.execHandlerSignal core s
  | .mput core => Sys2Proof.Machine.execMput core s
  | .mrply core ecc => Sys2Proof.Machine.execMrply core ecc s
  | .maadd core ecc => Sys2Proof.Machine.execMaadd core ecc s
  | .handlerEnd core => Sys2Proof.Machine.execHandlerEnd core s
  | .managerForward n port => Sys2Proof.Machine.execManagerForward n port s
  | .sout n errs => Sys2Proof.Machine.execSout n errs s
  | .otget n remote errs => Sys2Proof.Machine.execOtget n remote errs s
  | .otput n remote errs => Sys2Proof.Machine.execOtput n remote errs s
  | .otMoveDone n => Sys2Proof.Machine.execOtMoveDone n s
  | .flitReceive port bytes crcOk => Sys2Proof.Machine.execFlitReceive port bytes crcOk s
  | .ackTimeout port => Sys2Proof.Machine.execAckTimeout port s
  | .slotMessage port => Sys2Proof.Machine.execSlotMessage port s
  | .slotLineWrite port => Sys2Proof.Machine.execSlotLineWrite port s
  | .slotLineRead port ecc => Sys2Proof.Machine.execSlotLineRead port ecc s
  | .slotBarrierArrival port => Sys2Proof.Machine.execSlotBarrierArrival port s
  | .slotBarrierCompletion port => Sys2Proof.Machine.execSlotBarrierCompletion port s
  | .slotTime port => Sys2Proof.Machine.execSlotTime port s
  | .slotManagementCommand port cmd => Sys2Proof.Machine.execSlotManagementCommand port cmd s
  | .epochNotice port => Sys2Proof.Machine.execEpochNotice port s
  | .linkIdleTimeout port => Sys2Proof.Machine.execLinkIdleTimeout port s
  | .linkRetrainDone port trained => Sys2Proof.Machine.execLinkRetrainDone port trained s
  | .timeExchange ex => Sys2Proof.Machine.execTimeExchange ex s
  | .d2dFlitReceive flit => Sys2Proof.Machine.execD2dFlitReceive flit s
  | .d2dRetrainDone => Sys2Proof.Machine.execD2dRetrainDone s
  | .timeBaseSync => Sys2Proof.Machine.execTimeBaseSync s
  | .bar2Access off acc errs => Sys2Proof.Machine.execBar2Access off acc errs s
  | .bar4Access off acc errs => Sys2Proof.Machine.execBar4Access off acc errs s
  | .registerWrite req off size value => Sys2Proof.Machine.execRegisterWrite req off size value s
  | .tbCountLoRead size => Sys2Proof.Machine.execTbCountLoRead size s
  | .oscStatClear off size value => Sys2Proof.Machine.execOscStatClear off size value s
  | .doorbell n fn size value => Sys2Proof.Machine.execDoorbell n fn size value s
  | .sesCtxWrite n off size value => Sys2Proof.Machine.execSesCtxWrite n off size value s
  | .slotEmptyWrite p slot => Sys2Proof.Machine.execSlotEmptyWrite p slot s
  | .inputPlacement p slot => Sys2Proof.Machine.execInputPlacement p slot s
  | .placementComplete p slot lines => Sys2Proof.Machine.execPlacementComplete p slot lines s
  | .placementSuppress p slot => Sys2Proof.Machine.execPlacementSuppress p slot s
  | .vfFlr vf => Sys2Proof.Machine.execVfFlr vf s
  | .pf0Flr => Sys2Proof.Machine.execPf0Flr s
  | .conventionalReset => Sys2Proof.Machine.execConventionalReset s
  | .d3hotEntry => Sys2Proof.Machine.execD3hotEntry s
  | .d0Return => Sys2Proof.Machine.execD0Return s
  | .load req img pmask => Sys2Proof.Machine.execLoad req img pmask s
  | .assizeApply img => Sys2Proof.Machine.execAssizeApply img s
  | .release req pmask => Sys2Proof.Machine.execRelease req pmask s
  | .releaseCycle p => Sys2Proof.Machine.execReleaseCycle p s
  | .stop req pmask => Sys2Proof.Machine.execStop req pmask s
  | .arm req img pmask => Sys2Proof.Machine.execArm req img pmask s
  | .cancel req pmask => Sys2Proof.Machine.execCancel req pmask s
  | .weirPeriod => Sys2Proof.Machine.execWeirPeriod s
  | .coldReset boot => Sys2Proof.Machine.execColdReset boot s
  | .railFail rail => Sys2Proof.Machine.execRailFail rail s
  | .bootReady => Sys2Proof.Machine.execBootReady s
  | .vinSample mv ma => Sys2Proof.Machine.execVinSample mv ma s
  | .undervoltageShutdown => Sys2Proof.Machine.execUndervoltageShutdown s
  | .overvoltageShutdown => Sys2Proof.Machine.execOvervoltageShutdown s
  | .overcurrentShutdown => Sys2Proof.Machine.execOvercurrentShutdown s
  | .mgrLoss => Sys2Proof.Machine.execMgrLoss s
  | .envelopeAdjust => Sys2Proof.Machine.execEnvelopeAdjust s
  | .railSettleCheck settled => Sys2Proof.Machine.execRailSettleCheck settled s
  | .freqChangeStart => Sys2Proof.Machine.execFreqChangeStart s
  | .freqRampStep => Sys2Proof.Machine.execFreqRampStep s
  | .tempSample temps => Sys2Proof.Machine.execTempSample temps s
  | .droopResponse lowest => Sys2Proof.Machine.execDroopResponse lowest s
  | .coreUv => Sys2Proof.Machine.execCoreUv s
  | .refclkOutOfTolerance => Sys2Proof.Machine.execRefclkOutOfTolerance s
  | .refclkLoss => Sys2Proof.Machine.execRefclkLoss s
  | .refclkReturn => Sys2Proof.Machine.execRefclkReturn s
  | .calRead piece => Sys2Proof.Machine.execCalRead piece s
  | .calWrite sec piece => Sys2Proof.Machine.execCalWrite sec piece s
  | .rrModeOff req p => Sys2Proof.Machine.execRrModeOff req p s
  | .rrModeRecord req p => Sys2Proof.Machine.execRrModeRecord req p s
  | .rrModeReplay req p => Sys2Proof.Machine.execRrModeReplay req p s
  | .eventRecordDurable => Sys2Proof.Machine.execEventRecordDurable s
  | .ceSummaryCheck => Sys2Proof.Machine.execCeSummaryCheck s
  | .evrRdseqWrite off size value => Sys2Proof.Machine.execEvrRdseqWrite off size value s
  | .evrRead sec seq => Sys2Proof.Machine.execEvrRead sec seq s
  | .evrClear sec payload token => Sys2Proof.Machine.execEvrClear sec payload token s
  | .mgrRstWarm key => Sys2Proof.Machine.execMgrRstWarm key s
  | .mgrRstPartition key pmask => Sys2Proof.Machine.execMgrRstPartition key pmask s
  | .mgrRstCold key => Sys2Proof.Machine.execMgrRstCold key s
  | .mctpResetCold sec => Sys2Proof.Machine.execMctpResetCold sec s
  | .mctpResetWarm sec => Sys2Proof.Machine.execMctpResetWarm sec s
  | .mctpResetPartition sec pmask => Sys2Proof.Machine.execMctpResetPartition sec pmask s
  | .partitionWipeDone p => Sys2Proof.Machine.execPartitionWipeDone p s
  | .warmResetReady fault => Sys2Proof.Machine.execWarmResetReady fault s
  | .lcProvision sec token record => Sys2Proof.Machine.execLcProvision sec token record s
  | .lcDeploy sec token => Sys2Proof.Machine.execLcDeploy sec token s
  | .lcReturn sec token => Sys2Proof.Machine.execLcReturn sec token s
  | .tamperOpen => Sys2Proof.Machine.execTamperOpen s
  | .glitch => Sys2Proof.Machine.execGlitch s
  | .tapBypass => Sys2Proof.Machine.execTapBypass s
  | .tapIdcode => Sys2Proof.Machine.execTapIdcode s
  | .tapSamplePreload => Sys2Proof.Machine.execTapSamplePreload s
  | .tapExtest => Sys2Proof.Machine.execTapExtest s
  | .tapClamp => Sys2Proof.Machine.execTapClamp s
  | .tapHighz => Sys2Proof.Machine.execTapHighz s
  | .tapPrivate => Sys2Proof.Machine.execTapPrivate s
  | .pldmFirmwareUpdate fw => Sys2Proof.Machine.execPldmFirmwareUpdate fw s
  | .pldmSensorRead => Sys2Proof.Machine.execPldmSensorRead s
  | .pldmDiscovery => Sys2Proof.Machine.execPldmDiscovery s
  | .spdmGetCertificate => Sys2Proof.Machine.execSpdmGetCertificate s
  | .spdmChallenge nonce => Sys2Proof.Machine.execSpdmChallenge nonce s
  | .spdmGetMeasurements nonce => Sys2Proof.Machine.execSpdmGetMeasurements nonce s
  | .spdmKeyExchange nonce => Sys2Proof.Machine.execSpdmKeyExchange nonce s
  | .ideKm sec stream => Sys2Proof.Machine.execIdeKm sec stream s
  | .tamperLoopClose => Sys2Proof.Machine.execTamperLoopClose s
  | .shutdownLatchRelease => Sys2Proof.Machine.execShutdownLatchRelease s
  | .coldCommandTurnOn boot => Sys2Proof.Machine.execColdCommandTurnOn boot s
  | .msixUnmask vec => Sys2Proof.Machine.execMsixUnmask vec s
  | .undefinedServiceRequest n => Sys2Proof.Machine.execUndefinedServiceRequest n s
  | .requestSendFromHandler core => Sys2Proof.Machine.execRequestSendFromHandler core s
  | .recordStagingWrite => Sys2Proof.Machine.execRecordStagingWrite s
  | .flitTransmit port => Sys2Proof.Machine.execFlitTransmit port s
  | .changeSpacingEnd => Sys2Proof.Machine.execChangeSpacingEnd s
  | .stretchedCycle network => Sys2Proof.Machine.execStretchedCycle network s
  | .timeBaseTick => Sys2Proof.Machine.execTimeBaseTick s

end Sys2Proof.Machine
end

