-- ==== Sys2Proof/Machine/Idle.lean ====
section
/-! DEFINITION. Idle.lean: what the block does when no command waits (DESIGN CHOICE, log 2). -/

namespace Sys2Proof.Machine

/-- The compute plane's next event: a step of the oscillator, what is due in a live partition, or a release whose cycle has come. -/
def State.nextDue (s : State) : Option Instr :=
  match s.clockDue <|> allParts.findSome? s.partDue with
  | some c => some c
  | none => (allParts.find? s.releaseDue).map (fun p => .releaseCycle p)

/-- With no command waiting, the compute plane's next event of the present oscillator cycle takes place; once none is left, the cycle ends. During a cold boot the next rail comes up instead. With the oscillator stopped nothing else happens. -/
def State.idleStep (s : State) : Host.Outcome State Fault Refusal :=
  if s.booting then .next s.bootStep
  else if !s.clk.running then .next s
  else match s.nextDue with
    | some c => exec c s
    | none => .next s.endCycle

end Sys2Proof.Machine
end

