-- ==== Sys2Proof/Safety.lean ====
section
/-! DEFINITION. Safety.lean: the terms that statements are made in: what holds of every state a step reaches, a command that completes, and what a command leaves as it was. -/

namespace Sys2Proof.Machine

/-! ## Completion -/

/-- A command answers a next state, of which P holds. -/
def Completes (c : Instr) (s : State) (P : State → Prop) : Prop := ∃ t, exec c s = .next t ∧ P t

/-- A slot command issues and none of its checks fails: its core issues in the present cycle (03 R71, R73). -/
def Clean (s : State) (c : CoreId) (causes : List Cause) : Prop := s.issues c = true ∧ firstCause causes = none

/-! ## Frames: what stays as it was -/

/-- t is s but for the control unit of core c. -/
def OnlyCtl (c : CoreId) (s t : State) : Prop := t = s.modCtl c (fun _ => (t.core c).ctl)
/-- t is s but for the vector engine of core c. -/
def OnlyVec (c : CoreId) (s t : State) : Prop := t = s.modVec c (fun _ => (t.core c).vec)
/-- t is s but for the stream engine of core c. -/
def OnlyStr (c : CoreId) (s t : State) : Prop := t = s.modStr c (fun _ => (t.core c).str)
/-- t is s but for the sync unit of core c. -/
def OnlySyn (c : CoreId) (s t : State) : Prop := t = s.modSyn c (fun _ => (t.core c).syn)
/-- t is s but for the message unit of core c. -/
def OnlyMu (c : CoreId) (s t : State) : Prop := t = s.modMu c (fun _ => (t.core c).mu)
/-- t is s but for matrix engine e of core c. -/
def OnlyMx (c : CoreId) (e : EngId) (s t : State) : Prop := t = s.modMx c e (fun _ => (t.core c).mx[e])
/-- t is s but for core c. -/
def OnlyCore (c : CoreId) (s t : State) : Prop := t = s.modCore c (fun _ => t.core c)
/-- t is s but for partition p. -/
def OnlyPart (p : PartId) (s t : State) : Prop := t = s.modPart p (fun _ => t.part p)
/-- No byte of memory changes. -/
def SameMemory (s t : State) : Prop := ∀ a, memRead t.mem a = memRead s.mem a

/-! ## Rows of one shape -/

/-- The MMA-family instructions, each with its opcode (05 R112, R141). -/
def mmaRows (c : CoreId) (e : EngId) (w : BitVec 56) : List (Instr × BitVec 8) :=
  [(.mmaI8I8 c e w, 0x10), (.mmaI8I4 c e w, 0x11), (.mmaI4I8 c e w, 0x12), (.mmaI4I4 c e w, 0x13), (.mmaE4E4 c e w, 0x14),
       (.mmaE4E5 c e w, 0x15), (.mmaE5E4 c e w, 0x16), (.mmaE5E5 c e w, 0x17), (.mmaE4F4 c e w, 0x18), (.mmaF4E4 c e w, 0x19),
       (.mmaE5F4 c e w, 0x1A), (.mmaF4E5 c e w, 0x1B), (.mmaF4F4 c e w, 0x1C), (.mmaBf16 c e w, 0x1D), (.mmaFp16 c e w, 0x1E),
       (.mmaFp32 c e w, 0x1F)] ++
  [(.cmmaI8 c e w, 0x20), (.cmmaE4 c e w, 0x21), (.cmmaE5 c e w, 0x22)] ++
  [(.smma4I8I8 c e w, 0x30), (.smma4I8I4 c e w, 0x31), (.smma4I4I8 c e w, 0x32), (.smma4I4I4 c e w, 0x33), (.smma4E4E4 c e w, 0x34),
       (.smma4E4E5 c e w, 0x35), (.smma4E5E4 c e w, 0x36), (.smma4E5E5 c e w, 0x37), (.smma4E4F4 c e w, 0x38), (.smma4F4E4 c e w, 0x39),
       (.smma4E5F4 c e w, 0x3A), (.smma4F4E5 c e w, 0x3B), (.smma4F4F4 c e w, 0x3C)] ++
  [(.smma2I8I8 c e w, 0x50), (.smma2I8I4 c e w, 0x51), (.smma2I4I8 c e w, 0x52), (.smma2I4I4 c e w, 0x53), (.smma2E4E4 c e w, 0x54),
       (.smma2E4E5 c e w, 0x55), (.smma2E5E4 c e w, 0x56), (.smma2E5E5 c e w, 0x57), (.smma2E4F4 c e w, 0x58), (.smma2F4E4 c e w, 0x59),
       (.smma2E5F4 c e w, 0x5A), (.smma2F4E5 c e w, 0x5B), (.smma2F4F4 c e w, 0x5C)] ++
  [(.lmmaI8I8 c e w, 0x90), (.lmmaI8I4 c e w, 0x91), (.lmmaI4I8 c e w, 0x92), (.lmmaI4I4 c e w, 0x93), (.lmmaE4E4 c e w, 0x94),
       (.lmmaE4E5 c e w, 0x95), (.lmmaE5E4 c e w, 0x96), (.lmmaE5E5 c e w, 0x97), (.lmmaE4F4 c e w, 0x98), (.lmmaF4E4 c e w, 0x99),
       (.lmmaE5F4 c e w, 0x9A), (.lmmaF4E5 c e w, 0x9B), (.lmmaF4F4 c e w, 0x9C), (.lmmaBf16 c e w, 0x9D), (.lmmaFp16 c e w, 0x9E),
       (.lmmaFp32 c e w, 0x9F)] ++
  [(.lcmmaI8 c e w, 0xA0), (.lcmmaE4 c e w, 0xA1), (.lcmmaE5 c e w, 0xA2)]

/-- The vector instructions that put a result in flight, each with its opcode and result latency (07 R166); float: the element type is a float. -/
def vecRows (c : CoreId) (w : BitVec 56) (float : Bool) : List (Instr × BitVec 8 × Nat) :=
  [(.vmov c w, 0x01, 2), (.vmovi c w, 0x02, 2), (.vsel c w, 0x03, 2), (.vadd c w, 0x08, if float then 4 else 2), (.vsub c w, 0x09, if float then 4 else 2),
   (.vmul c w, 0x0A, if float then 4 else 2), (.vfma c w, 0x0B, 4), (.vmin c w, 0x0C, 2), (.vmax c w, 0x0D, 2), (.vabs c w, 0x0E, 2),
   (.vneg c w, 0x0F, 2), (.vand c w, 0x10, 2), (.vor c w, 0x11, 2), (.vxor c w, 0x12, 2), (.vshl c w, 0x13, 2),
   (.vshr c w, 0x14, 2), (.vsra c w, 0x15, 2), (.vcmp c w, 0x18, 2), (.qop c w, 0x19, 2), (.vcvt c w, 0x20, 2),
   (.vdq c w, 0x21, 2), (.vqg c w, 0x22, 4), (.vsf c w, 0x28, 8), (.vred c w, 0x30, 12), (.vld c w, 0x38, 1),
   (.vst c w, 0x39, 1), (.vflgr c w, 0x3C, 2)]

/-! ## Invariants -/

/-- Device memory is in its canonical form: rising addresses, no zero byte listed. -/
def MemoryCanonical (s : State) : Prop := memWf s.mem = true

/-- The event store holds at most the 1,024 slots it has (17 R387). -/
def StoreBounded (s : State) : Prop := s.ev.store.length ≤ 1024

/-- The part has left life-cycle state BLANK (16 R374). -/
def LeftBlank (s : State) : Prop := s.sec.lcs ≠ 0

end Sys2Proof.Machine
end

