-- ==== Sys2Proof/Certificates/Slice0/Obligations.lean ====
section
/-! DEFINITION. Obligations.lean: the statements for the provers, family by family in the table's order. -/

open Sys2Proof Sys2Proof.Machine

/-! ## The queue, reset and what every step keeps -/

/-- The command at the front of the queue is taken off it and runs on the state with the queue's rest. -/
def Obligations.StepRunsTheFrontCommand : Prop :=
  ∀ (c : Instr) (rest : List Instr) (s : State),
    step { s with pending := c :: rest } = exec c { s with pending := rest }

/-- On an empty queue (the model's choice; DESIGN CHOICE, log 2): a cold boot brings its next rail up; else, with the oscillator stopped the part idles; else the next event due happens; with none due the oscillator cycle ends. -/
def Obligations.EmptyQueueAdvancesTheComputeDie : Prop :=
  ∀ s : State, s.pending = [] →
    (s.booting = true → step s = .next s.bootStep) ∧
    (s.booting = false → s.clk.running = false → step s = .next s) ∧
    (∀ c, s.booting = false → s.clk.running = true → s.nextDue = some c → step s = exec c s) ∧
    (s.booting = false → s.clk.running = true → s.nextDue = none → step s = .next s.endCycle)

/-- A step's command never touches the queue: a run serves its commands first in, first out. -/
def Obligations.CommandsLeaveTheQueue : Prop :=
  ∀ (c : Instr) (s t : State), exec c s = .next t → t.pending = s.pending

/-- No command but VIN_SAMPLE ever stops the machine, and it stops only where the input is past its absolute maximum ratings: below -60 V, above 80 V, or above 66 V for more than 1 ms (the fault there is DEDUCED, log 72). Every other command, in every state, answers a next state; TAP_PRIVATE, which stopped in RETURNED when this statement got its name, is among them (log 73). -/
def Obligations.OnlyTwoCommandsStop : Prop :=
  ∀ (c : Instr) (s : State), (∃ t, exec c s = .next t) ∨
    (exec c s = .fault .outsideRatings ∧ ∃ mv ma, c = .vinSample mv ma ∧
      (mv < -60000 ∨ 80000 < mv ∨ 66000 < mv ∧ ∃ t0, s.pow.hiNs = some t0 ∧ t0 + 1000000 < s.ns))

/-- What the spec gives right after a cold reset: BUSY reads 1 and READY 0, every partition is empty with its counters 0, no halt record is valid, every region is 0, every sync counter 0, the time base 0, record and replay off, no doorbell window open, no session listed. The two invariants below hold of it: memory in its canonical form, the event store within its slots. -/
def Obligations.ResetLeavesThePartEmpty : Prop :=
  State.reset.asz.busy = true ∧ State.reset.sec.ready = false ∧ State.reset.asz.code = 0 ∧ State.reset.asz.stage = 0 ∧
    (∀ p : PartId, (State.reset.part p).pstate = .empty ∧ (State.reset.part p).inrst = false ∧ (State.reset.part p).icount = 0 ∧
      (State.reset.part p).total = 0 ∧ (State.reset.part p).halt = 0 ∧ (State.reset.part p).late = 0) ∧
    (∀ c : CoreId, (State.reset.core c).halt = .reset ∧ (State.reset.core c).cfg.region = .replicate 16 0 ∧
      (State.reset.core c).syn.s = .replicate 48 0 ∧ (State.reset.core c).syn.scope = 0 ∧ (State.reset.core c).cfg.ue = 0) ∧
    State.reset.clk.tb = 0 ∧ State.reset.rr.mode = 0 ∧ State.reset.host.act = 0 ∧ State.reset.host.sessions = [] ∧
    MemoryCanonical State.reset ∧ StoreBounded State.reset

/-- Every step keeps device memory in its canonical form, from every state that has it. -/
def Obligations.StepKeepsMemoryCanonical : Prop :=
  ∀ s t : State, MemoryCanonical s → step s = .next t → MemoryCanonical t

/-- Every step keeps the event store within its 1,024 slots, from every state that is within them. -/
def Obligations.StepKeepsTheEventStoreBounded : Prop :=
  ∀ s t : State, StoreBounded s → step s = .next t → StoreBounded t

/-- A step leaves the life-cycle state as it was, or makes one transition of the table of 16 R375: BLANK to PROVISIONED, PROVISIONED to DEPLOYED, PROVISIONED or DEPLOYED to RETURNED, RETURNED to PROVISIONED. -/
def Obligations.LifeCycleMakesOnlyItsTransitions : Prop :=
  ∀ s t : State, step s = .next t →
    t.sec.lcs = s.sec.lcs ∨ (s.sec.lcs, t.sec.lcs) ∈ ([(0, 1), (1, 2), (1, 3), (2, 3), (3, 1)] : List (BitVec 2 × BitVec 2))

/-! ## The control slot -/

/-- CSET, CADD and CADDC write their counter and nothing else, when no open repeat level owns it; sums wrap modulo 2^32. -/
def Obligations.CounterInstructionsWriteTheirCounter : Prop :=
  ∀ (s : State) (c : CoreId) (d a b : Fin 8) (imm : BitVec 32), s.issues c = true →
    (∀ l ∈ (s.core c).ctl.reps, l.ctr ≠ d) →
    exec (.cset c (0#1 ++ BitVec.ofNat 3 d ++ 0#4 ++ imm)) s = .next (s.modCtl c (fun u => { u with c := u.c.set d imm })) ∧
    exec (.cadd c (0#1 ++ BitVec.ofNat 3 d ++ 0#1 ++ BitVec.ofNat 3 a ++ imm)) s =
      .next (s.modCtl c (fun u => { u with c := u.c.set d (BitVec.ofNat 32 (u.c[a].toNat + imm.toNat)) })) ∧
    exec (.caddc c (0#1 ++ BitVec.ofNat 3 d ++ 0#1 ++ BitVec.ofNat 3 a ++ 0#1 ++ BitVec.ofNat 3 b ++ 0#28)) s =
      .next (s.modCtl c (fun u => { u with c := u.c.set d (BitVec.ofNat 32 (u.c[a].toNat + u.c[b].toNat)) }))

/-- PSETL, PSETH, PADD and PMAC write their pointer and nothing else; sums and products wrap modulo 2^48, signed operands extend to 48 bits, PMAC reads its counter unsigned. -/
def Obligations.PointerInstructionsWriteTheirPointer : Prop :=
  ∀ (s : State) (c : CoreId) (d a : Fin 16) (b : Fin 8) (imm : BitVec 32) (hi : BitVec 16) (short : BitVec 24),
    s.issues c = true →
    exec (.psetl c (BitVec.ofNat 4 d ++ 0#4 ++ imm)) s =
      .next (s.modCtl c (fun u => { u with p := u.p.set d (u.p[d].extractLsb' 32 16 ++ imm) })) ∧
    exec (.pseth c (BitVec.ofNat 4 d ++ 0#20 ++ hi)) s =
      .next (s.modCtl c (fun u => { u with p := u.p.set d (hi ++ u.p[d].extractLsb' 0 32) })) ∧
    exec (.padd c (BitVec.ofNat 4 d ++ BitVec.ofNat 4 a ++ imm)) s =
      .next (s.modCtl c (fun u => { u with p := u.p.set d (BitVec.ofInt 48 (u.p[a].toNat + imm.toInt)) })) ∧
    exec (.pmac c (BitVec.ofNat 4 d ++ BitVec.ofNat 4 a ++ 0#1 ++ BitVec.ofNat 3 b ++ 0#4 ++ short)) s =
      .next (s.modCtl c (fun u => { u with p := u.p.set d (BitVec.ofInt 48 (u.p[a].toNat + u.c[b].toNat * short.toInt)) }))

/-- KCMPC, KCMPCC, KCMPP, KSET and KOP write their comparator flag and nothing else; comparisons are unsigned. -/
def Obligations.FlagInstructionsWriteTheirFlag : Prop :=
  ∀ (s : State) (c : CoreId) (d x y : Fin 4) (a b : Fin 8) (p q : Fin 16) (imm : BitVec 32) (v : Bool), s.issues c = true →
    (∀ (cond : BitVec 2) (holds : Nat → Nat → Bool),
      holds = (match cond.toNat with | 0 => fun m n => m == n | 1 => fun m n => m != n | 2 => fun m n => m < n | _ => fun m n => n ≤ m) →
      exec (.kcmpc c (cond ++ BitVec.ofNat 2 d ++ 0#1 ++ BitVec.ofNat 3 a ++ imm)) s =
        .next (s.modCtl c (fun u => { u with k := u.k.set d (holds u.c[a].toNat imm.toNat) })) ∧
      exec (.kcmpcc c (cond ++ BitVec.ofNat 2 d ++ 0#1 ++ BitVec.ofNat 3 a ++ 0#1 ++ BitVec.ofNat 3 b ++ 0#28)) s =
        .next (s.modCtl c (fun u => { u with k := u.k.set d (holds u.c[a].toNat u.c[b].toNat) })) ∧
      exec (.kcmpp c (cond ++ BitVec.ofNat 2 d ++ BitVec.ofNat 4 p ++ BitVec.ofNat 4 q ++ 0#28)) s =
        .next (s.modCtl c (fun u => { u with k := u.k.set d (holds u.p[p].toNat u.p[q].toNat) }))) ∧
    exec (.kset c (0#2 ++ BitVec.ofNat 2 d ++ 0#35 ++ BitVec.ofBool v)) s =
      .next (s.modCtl c (fun u => { u with k := u.k.set d v })) ∧
    (∀ (op : BitVec 2) (f : Bool → Bool → Bool),
      f = (match op.toNat with | 0 => fun m n => m && n | 1 => fun m n => m || n | 2 => fun m n => m ^^ n | _ => fun m n => m && !n) →
      exec (.kop c (op ++ BitVec.ofNat 2 d ++ 0#2 ++ BitVec.ofNat 2 x ++ 0#2 ++ BitVec.ofNat 2 y ++ 0#28)) s =
        .next (s.modCtl c (fun u => { u with k := u.k.set d (f u.k[x] u.k[y]) })))

/-- BR, BK and BP outside delay bundles and open levels: two delay bundles follow (three bundles left, the branch's own with them), then the target if the branch is taken, else the bundle after the delay bundles. -/
def Obligations.BranchesTakeTwoDelayBundles : Prop :=
  ∀ (s : State) (c : CoreId) (k : Fin 4) (v : Bool) (p : Fin 16) (off : BitVec 24), s.issues c = true →
    (s.core c).ctl.redirect = none → (s.core c).ctl.reps = [] →
    let u := (s.core c).ctl
    let target : BitVec 48 := BitVec.ofInt 48 (u.pc.toNat + 64 * off.toInt)
    exec (.br c (0#16 ++ off)) s =
      .next (s.modCtl c (fun u => { u with redirect := some { left := 3, target := some target, empties := false } })) ∧
    exec (.bk c (0#2 ++ BitVec.ofNat 2 k ++ BitVec.ofBool v ++ 0#11 ++ off)) s =
      .next (s.modCtl c (fun u => { u with
        redirect := some { left := 3, target := if u.k[k] = v then some target else none, empties := false } })) ∧
    (u.p[p].toNat % 64 = 0 → exec (.bp c (0#4 ++ BitVec.ofNat 4 p ++ 0#32)) s =
      .next (s.modCtl c (fun u => { u with redirect := some { left := 3, target := some u.p[p], empties := false } })))

/-- REP outside delay bundles, with fewer than four levels open whose bodies all end no earlier: a count opens a level over the next L bundles, a zero count skips them behind two empty bundles. -/
def Obligations.RepOpensALevelOrSkipsItsBody : Prop :=
  ∀ (s : State) (c : CoreId) (a : Fin 8) (l : BitVec 16), s.issues c = true → (s.core c).ctl.redirect = none → l ≠ 0 →
    let u := (s.core c).ctl
    let w : BitVec 40 := 0#5 ++ BitVec.ofNat 3 a ++ 0#16 ++ l
    (u.c[a] ≠ 0 → u.reps.length < 4 → (∀ r ∈ u.reps, u.pc.toNat + 64 * l.toNat ≤ r.last.toNat) →
      exec (.rep c w) s = .next (s.modCtl c (fun u => { u with
        reps := { ctr := a, first := u.pc + 64, last := u.pc + BitVec.ofNat 48 (64 * l.toNat) } :: u.reps }))) ∧
    (u.c[a] = 0 → (∀ r ∈ u.reps, r.last ≠ u.pc) →
      exec (.rep c w) s = .next (s.modCtl c (fun u => { u with
        redirect := some { left := 3, target := some (u.pc + BitVec.ofNat 48 (64 * (l.toNat + 1))), empties := true } })))

/-- The repeat logic after a bundle that no branch follows (03 R67): past the last body's end the next bundle follows; at the end of the innermost body its counter falls by one, and the body starts again while it is not 0; at 0 the level closes and the next outer level is tried at the same bundle, as if the closed one had not been. -/
def Obligations.RepeatLogicDecidesTheNextFetch : Prop :=
  ∀ (u : ControlUnit), u.redirect = none →
    (u.reps = [] → advance u = { u with pc := u.pc + 64 }) ∧
    (∀ l outer, u.reps = l :: outer →
      (u.pc ≠ l.last → advance u = { u with pc := u.pc + 64 }) ∧
      (u.pc = l.last → u.c[l.ctr] ≠ 1 → advance u = { u with c := u.c.set l.ctr (u.c[l.ctr] - 1), pc := l.first }) ∧
      (u.pc = l.last → u.c[l.ctr] = 1 → outer = [] → advance u = { u with c := u.c.set l.ctr 0, reps := [], pc := u.pc + 64 }) ∧
      (u.pc = l.last → u.c[l.ctr] = 1 → advance u = advance { u with c := u.c.set l.ctr 0, reps := outer }) ∧
      (∀ m outer', outer = m :: outer' → u.pc = l.last → m.last = l.last → m.ctr ≠ l.ctr → u.c[l.ctr] = 1 → u.c[m.ctr] ≠ 1 →
        advance u = { u with c := (u.c.set l.ctr 0).set m.ctr (u.c[m.ctr] - 1), reps := outer, pc := m.first }))

/-- NOP changes no state. FIN of a core whose sync counters are all 0 marks it finished in the present cycle; registers, counters, queues and memory stay as they are, and of its partition only what spanning barriers await. The core closes with the end of that cycle: its queues and its handler are empty. -/
def Obligations.NopChangesNothingAndFinFinishes : Prop :=
  (∀ (s : State) (c : CoreId) (slot : Fin 8), exec (.nop c slot) s = .next s) ∧
  (∀ (s : State) (c : CoreId) (p : PartId), s.issues c = true → s.partOf c = some p → (∀ n : Fin 48, (s.core c).syn.s[n] = 0) →
    Completes (.fin c 0) s (fun t =>
      (t.core c).ctl = { (s.core c).ctl with finished := true, finCyc := (s.part p).now } ∧
      (t.core c).vec = (s.core c).vec ∧ (t.core c).str = (s.core c).str ∧ (t.core c).syn = (s.core c).syn ∧
      (t.core c).mu = (s.core c).mu ∧ (t.core c).cfg = (s.core c).cfg ∧ (∀ d, d ≠ c → t.core d = s.core d) ∧
      (∀ q, q ≠ p → t.part q = s.part q) ∧ t.part p = { s.part p with roots := (t.part p).roots } ∧
      (∀ id : Fin 16, (s.core c).syn.scopeOf id ≠ 2 → (t.part p).roots[id] = (s.part p).roots[id]) ∧
      t.net = s.net ∧ t.mem = s.mem ∧ t.ev = s.ev ∧ t.clk = s.clk)) ∧
  (∀ (s : State) (c : CoreId) (p : PartId), s.partOf c = some p → (s.core c).ctl.finished = true → (s.core c).ctl.halted = false →
    (s.core c).ctl.finCyc = (s.part p).now →
    let t := s.closeFinished p
    (t.core c).mu.rq = [] ∧ (t.core c).mu.rp = [] ∧ (t.core c).mu.handler = none ∧ (t.core c).mu.txHeld = [] ∧
    (t.core c).ctl = (s.core c).ctl ∧ t.parts = s.parts ∧ t.mem = s.mem)

/-- HALT by its code (03 R72): 0x00 halts with reason 0x0F, 0x80 to 0xFF with the code, 0x01 to 0x7F with reason 0x02. The halt record names the bundle; the core has halted, its registers and the memory stay. -/
def Obligations.HaltRecordsItsReason : Prop :=
  ∀ (s : State) (c : CoreId) (code : BitVec 8), s.issues c = true →
    Completes (.halt c (0#32 ++ code)) s (fun t =>
      (t.core c).ctl.halted = true ∧ (t.core c).halt.valid = true ∧ (t.core c).halt.inflight = false ∧
      (t.core c).halt.slot = 0 ∧ (t.core c).halt.addr = (s.core c).ctl.pc ∧
      (t.core c).halt.reason = (if code = 0 then 0x0F else if code.toNat < 0x80 then 0x02 else code) ∧
      (t.core c).ctl.c = (s.core c).ctl.c ∧ (t.core c).ctl.p = (s.core c).ctl.p ∧ (t.core c).ctl.k = (s.core c).ctl.k ∧
      (t.core c).vec = (s.core c).vec ∧ t.mem = s.mem)

/-! ## The sync/message slot -/

/-- SREL takes its amount from a counter of its core that holds it; SSIG adds its amount to a counter of a core of the partition: at once at its own core, 4 h + 1 cycles later at another. Registers, memory and every other counter stay. SREL of more than its counter holds halts its core with reason 0x08; SSIG past the capacity of its own core's counter halts it with 0x07. The target of SSIG is an operand of the command, because the bits 45:40 that hold it lie in the opcode field (DEDUCED, log 12). -/
def Obligations.SignalsAndReleasesMoveTheirCounter : Prop :=
  ∀ (s : State) (c tgt : CoreId) (p : PartId) (n : Fin 48) (amt : BitVec 8), s.issues c = true → s.partOf c = some p → amt ≠ 0 →
    let w : BitVec 40 := 0#2 ++ BitVec.ofNat 6 n ++ amt ++ 0#24
    let done := fun u : ControlUnit => { u with waiting := false, deadline := none }
    (amt.toNat ≤ (s.core c).syn.s[n].toNat →
      exec (.srel c w) s = .next ((s.modSyn c (fun y => { y with s := y.s.set n (y.s[n] - amt) })).modCtl c done)) ∧
    ((s.core c).syn.s[n].toNat + amt.toNat ≤ (s.core c).syn.cap[n].toNat →
      exec (.ssig c c w) s = .next ((s.modSyn c (fun y => { y with s := y.s.set n (y.s[n] + amt) })).modCtl c done)) ∧
    (tgt ≠ c → s.partOf tgt = some p →
      exec (.ssig c tgt w) s = .next ((s.modPart p (fun q => { q with
        signals := q.signals ++ [{ target := tgt, n := Fin.ofNat 64 n, amt := amt, at_ := q.now + 4 * hops c tgt + 1,
                                   sender := c, bundle := (s.core c).ctl.pc }] })).modCtl c done)) ∧
    ((s.core c).syn.s[n].toNat < amt.toNat → Completes (.srel c w) s (fun t =>
      (t.core c).ctl.halted = true ∧ (t.core c).halt.reason = 0x08 ∧ (t.core c).halt.detail = BitVec.ofNat 64 n.val ∧
      (t.core c).syn = (s.core c).syn ∧ t.mem = s.mem)) ∧
    ((s.core c).syn.cap[n].toNat < (s.core c).syn.s[n].toNat + amt.toNat → Completes (.ssig c c w) s (fun t =>
      (t.core c).ctl.halted = true ∧ (t.core c).halt.reason = 0x07 ∧ (t.core c).halt.detail = BitVec.ofNat 64 n.val ∧
      (t.core c).syn = (s.core c).syn ∧ t.mem = s.mem))

/-- SWAIT outside replay and recording: a counter that holds the amount gives it, and K[KD] = 0; one that does not, before its deadline, leaves the bundle waiting, its deadline TMO times its unit (1 ns, 1 us or 1 ms) after the time base of its first issue. CWT on a completed barrier takes it: the id is idle and K[KD] = 0. -/
def Obligations.WaitsTakeWhatHasCome : Prop :=
  ∀ (s : State) (c : CoreId) (n : Fin 48) (id : Fin 16) (amt : BitVec 8) (kd : Fin 4) (tu : BitVec 2) (tmo : BitVec 20),
    s.issues c = true → s.inReplay c = false → (∀ p, s.recording p = false) → amt ≠ 0 → tu ≠ 3 → (tmo = 0 → tu = 0) →
    amt.toNat ≤ (s.core c).syn.cap[n].toNat →
    let w : BitVec 40 := 0#2 ++ BitVec.ofNat 6 n ++ amt ++ BitVec.ofNat 2 kd ++ tu ++ tmo
    let v : BitVec 40 := 0#4 ++ BitVec.ofNat 4 id ++ 0#8 ++ BitVec.ofNat 2 kd ++ tu ++ tmo
    let done := fun u : ControlUnit => { u with waiting := false, deadline := none, k := u.k.set kd false }
    (amt.toNat ≤ (s.core c).syn.s[n].toNat →
      exec (.swait c w) s = .next ((s.modSyn c (fun y => { y with s := y.s.set n (y.s[n] - amt) })).modCtl c done)) ∧
    ((s.core c).syn.s[n].toNat < amt.toNat → (s.core c).ctl.waiting = false → (s.core c).ctl.deadline = none →
      Completes (.swait c w) s (fun t =>
        (t.core c).ctl.waiting = true ∧ ((t.core c).ctl.deadline = none ↔ tmo = 0) ∧ (t.core c).ctl.k = (s.core c).ctl.k ∧
        (tmo ≠ 0 → (t.core c).ctl.deadline =
          some (s.coreTb c + BitVec.ofNat 64 (tmo.toNat * (if tu = 0 then 1 else if tu = 1 then 1000 else 1000000)))) ∧
        (t.core c).syn = { (s.core c).syn with wcyc := (s.core c).syn.wcyc + 1 } ∧ t.mem = s.mem ∧ t.parts = s.parts)) ∧
    ((s.core c).syn.scopeOf id = 1 → (s.core c).syn.bar[id] = .completed →
      exec (.cwt c v) s = .next ((s.modSyn c (fun y => { y with bar := y.bar.set id .idle })).modCtl c done))

/-- CFL at an id at which its core has not arrived: the core has arrived, and its arrival reaches the root 4 d cycles later, d its depth in the tree. On a partition-wide id without its wait bit that is all; with it the bundle waits from its first issue on, with the deadline of a wait, and completes in the first evaluation in which the id is completed, which makes it idle and K[KD] = 0. On a spanning id, which has no wait, the arrival sets the due count of the completion, DUE counts ahead, eight at least, and the last arrival of the partition's cores starts the wait for it. -/
def Obligations.ConfluenceArrivalSetsOut : Prop :=
  ∀ (s : State) (c : CoreId) (p : PartId) (id : Fin 16) (e : Bool), s.issues c = true → s.partOf c = some p →
    (e = true → (s.core c).syn.nonZero = 0) →
    let arrived := fun (s : State) => (s.modSyn c (fun y => { y with bar := y.bar.set id .arrived })).modPart p (fun q => { q with
      roots := q.roots.set id { q.roots[id] with coming := q.roots[id].coming ++ [(c, q.now + 4 * depth c)] } })
    let done := fun u : ControlUnit => { u with waiting := false, deadline := none }
    ((s.core c).syn.scopeOf id = 1 → (s.core c).syn.bar[id] ≠ .arrived →
      exec (.cfl c (0#3 ++ BitVec.ofBool e ++ BitVec.ofNat 4 id ++ 0#32)) s = .next ((arrived s).modCtl c done)) ∧
    (∀ (kd : Fin 4) (tu : BitVec 2) (tmo : BitVec 20), tu ≠ 3 → (tmo = 0 → tu = 0) → (s.core c).syn.scopeOf id = 1 →
      s.inReplay c = false → (∀ p, s.recording p = false) →
      let w : BitVec 40 := 0#2 ++ 1#1 ++ BitVec.ofBool e ++ BitVec.ofNat 4 id ++ 0#8 ++ BitVec.ofNat 2 kd ++ tu ++ tmo
      ((s.core c).ctl.waiting = false → (s.core c).ctl.deadline = none → (s.core c).syn.bar[id] ≠ .arrived →
        exec (.cfl c w) s = .next (((arrived s).modSyn c (fun y => { y with wcyc := y.wcyc + 1 })).modCtl c (fun u => { u with
          waiting := true, wait := 0x08#8 ++ w
          deadline := if tmo = 0 then none
            else some (s.coreTb c + BitVec.ofNat 64 (tmo.toNat * (if tu = 0 then 1 else if tu = 1 then 1000 else 1000000))) }))) ∧
      ((s.core c).ctl.waiting = true → (s.core c).syn.bar[id] = .completed →
        exec (.cfl c w) s = .next ((s.modSyn c (fun y => { y with bar := y.bar.set id .idle })).modCtl c
          (fun u => { done u with k := u.k.set kd false })))) ∧
    (∀ due : BitVec 20, due ≠ 0 → (s.core c).syn.scopeOf id = 2 → (s.core c).syn.bar[id] ≠ .arrived →
      let r := (s.part p).roots[id]
      Completes (.cfl c (0#3 ++ BitVec.ofBool e ++ BitVec.ofNat 4 id ++ 0#12 ++ due)) s (fun t =>
        t = (((arrived s).modPart p (fun q => { q with roots := q.roots.set id { q.roots[id] with
          spanDue := max ((s.part p).count + due.toNat) ((s.part p).count + 8), spanWaiting := (t.part p).roots[id].spanWaiting } })).modCtl c done) ∧
        (r.spanWaiting = true → (t.part p).roots[id].spanWaiting = true) ∧
        ((∀ d, s.partOf d = some p → d ≠ c → ((s.core d).ctl.finished = false ∧ (s.core d).syn.bar[id] ≠ .arrived)) →
          s.coresOf p ≠ [c] → (t.part p).roots[id].spanWaiting = r.spanWaiting) ∧
        (s.coresOf p = [c] → r.coming = [] → (t.part p).roots[id].spanWaiting = true)))

/-- MTXQ stages the message its pointer and vector line spell. MSREQ whose destination takes it and for whose reply there is room sends it, outside replay and recording: the message is on its way, one reply entry is reserved, K[KD] = 0. MRECV takes the oldest answer: its payload and header reach two lines of its vector register two issue cycles later, K[KD] tells a NAK. -/
def Obligations.SendsAndReceivesMoveMessages : Prop :=
  ∀ (s : State) (c : CoreId) (p : PartId) (w : BitVec 40), s.issues c = true → s.partOf c = some p →
    s.inReplay c = false → (∀ p, s.recording p = false) →
    let kd : Fin 4 := Fin.ofNat 4 (fld w 23 22)
    (firstCause (s.synCauses c (0x22#8 ++ w)) = none →
      exec (.mtxq c w) s = .next ((s.modMu c (fun u => { u with
        staging := u.staging.set (Fin.ofNat 16 (fld w 23 20)) (some (s.sendOf c w)) })).modCtl c
          (fun u => { u with waiting := false, deadline := none }))) ∧
    (firstCause (s.synCauses c (0x20#8 ++ w)) = none → s.sendCase c w = .accepted →
      Completes (.msreq c w) s (fun t =>
        t.net = s.net ++ [s.sendOf c w] ∧ (t.core c).mu.rpHeld = (s.core c).mu.rpHeld + 1 ∧
        (t.core c).ctl = { (s.core c).ctl with waiting := false, deadline := none, k := ((s.core c).ctl.k.set kd false) } ∧
        (t.core c).vec = (s.core c).vec ∧ (t.core c).syn = (s.core c).syn ∧ t.mem = s.mem ∧ t.parts = s.parts)) ∧
    (∀ m rest, firstCause (s.synCauses c (0x21#8 ++ w)) = none → (s.core c).mu.rp = m :: rest →
      Completes (.mrecv c w) s (fun t =>
        (t.core c).mu = { (s.core c).mu with rp := rest, nakRx := if m.kind = 3 then satAdd (s.core c).mu.nakRx 1 else (s.core c).mu.nakRx } ∧
        (t.core c).vec = { (s.core c).vec with pend := (s.core c).vec.pend ++
          [{ due := (s.part p).count + 2, dest := .line (Fin.ofNat 32 (fld w 39 35)) (Fin.ofNat 32 (fld w 34 30)) m.payload,
             flags := 0, through := none, bundle := (s.core c).ctl.pc },
           { due := (s.part p).count + 2, dest := .line (Fin.ofNat 32 (fld w 39 35)) (Fin.ofNat 32 (fld w 34 30) + 1) (m.hdr.setWidth 512),
             flags := 0, through := none, bundle := (s.core c).ctl.pc }] } ∧
        (t.core c).ctl = { (s.core c).ctl with waiting := false, deadline := none, k := (s.core c).ctl.k.set kd (m.kind == 3) } ∧
        (t.core c).syn = (s.core c).syn ∧ t.mem = s.mem ∧ t.parts = s.parts ∧ t.net = s.net))

/-- MTXC whose every part finds its destination open and its entries free commits them together, outside replay and recording: each core's queue is its old queue followed by the parts for it in ascending entry order, each behind the earlier requests of its sender, receiver and class that were still on their way (11 R272); K[KD] = 0, and no entry stays held. -/
def Obligations.TransactionCommitDeliversEveryPart : Prop :=
  ∀ (s : State) (c : CoreId) (w : BitVec 40), Clean s c (s.synCauses c (0x23#8 ++ w)) →
    s.inReplay c = false → (∀ p, s.recording p = false) →
    (s.txAcquire c (s.txParts c (fld w 39 24))).txCase c w = .accepted →
    let parts := fun d : CoreId => all16.filterMap (fun e =>
      if bit w (24 + e.val) then ((s.core c).mu.staging[e]).filter (fun m => s.ownCore m.dmod m.dep == some d) else none)
    let before := fun m x : Msg => x.kind == 1 && s.fromDie x && x.sep == c.val && x.dmod == m.dmod && x.dep == m.dep && x.cls == m.cls
    let joins := fun (queue : List Msg × List Msg) (m : Msg) =>
      (queue.1 ++ queue.2.filter (before m) ++ [{ m with gen := (s.core c).mu.gen }], queue.2.filter (fun x => !before m x))
    Completes (.mtxc c w) s (fun t =>
      (∀ d, (t.core d).mu.rq = ((parts d).foldl joins ((s.core d).mu.rq, s.net)).1) ∧
      t.net = s.net.filter (fun x => (allCores.flatMap parts).all (fun m => !before m x)) ∧
      (t.core c).mu.txHeld = [] ∧ (t.core c).mu.staging = (s.core c).mu.staging ∧
      (t.core c).ctl = { (s.core c).ctl with
        waiting := false, deadline := none, k := (s.core c).ctl.k.set (Fin.ofNat 4 (fld w 23 22)) false } ∧
      t.mem = s.mem ∧ t.parts = s.parts)

/-- SIGNAL_ARRIVAL adds the next due signal's amount to its counter, when nothing refused the counter in this cycle and the sum is within the capacity. WAIT_TIMEOUT completes a wait, of any of the six kinds, whose deadline has passed before what it waits for came: K[KD] = 1, one more timeout counted, counters, barriers and queues unchanged; MRECV's header then reads as 0, and MTXC has released every entry it held. -/
def Obligations.SignalsArriveAndWaitsTimeOut : Prop :=
  (∀ (s : State) (c : CoreId) (p : PartId) (x : Signal), s.liveOf c = some p → (s.part p).nextSignal c = some x → x.n.val < 48 →
    (s.part p).used.contains (resLost c x.n) = false →
    (s.core c).syn.count x.n + x.amt.toNat ≤ (s.core c).sigCap x.n →
    exec (.signalArrival c) s = .next ((s.modPart p (fun q => { q with signals := q.signals.erase x })).modSyn c
      (fun y => y.setCount x.n (y.count x.n + x.amt.toNat)))) ∧
  (∀ (s : State) (c : CoreId), (s.core c).ctl.waiting = true → opc48 (s.core c).ctl.wait = 0x03 →
    s.synEval c (s.core c).ctl.wait = .done (some true) → (∀ p, s.recording p = false) →
    Clean s c (s.synCauses c (s.core c).ctl.wait) →
    exec (.waitTimeout c) s = .next ((s.modSyn c (fun y => { y with tmout := satAdd y.tmout 1 })).modCtl c (fun u => { u with
      waiting := false, deadline := none, k := u.k.set (Fin.ofNat 4 (fld u.wait 23 22)) true }))) ∧
  (∀ (s : State) (c : CoreId) (p : PartId) (d : BitVec 64), s.partOf c = some p → (s.core c).ctl.waiting = true → (s.core c).ctl.deadline = some d →
    d ≤ s.coreTb c → s.inReplay c = false → (∀ p, s.recording p = false) → Clean s c (s.synCauses c (s.core c).ctl.wait) →
    let bits := (s.core c).ctl.wait
    let w := bits.extractLsb' 0 40
    let id : Fin 16 := Fin.ofNat 16 (fld w 35 32)
    let m := s.sendOf c w
    let done := fun u : ControlUnit => { u with waiting := false, deadline := none, k := u.k.set (Fin.ofNat 4 (fld w 23 22)) true }
    let counted := s.modSyn c (fun y => { y with tmout := satAdd y.tmout 1 })
    fld w 19 0 ≠ 0 →
    (opc48 bits = 0x03 → (s.core c).syn.count (fld w 37 32) < fld w 31 24 → exec (.waitTimeout c) s = .next (counted.modCtl c done)) ∧
    (opc48 bits = 0x08 ∧ bit w 37 = true ∨ opc48 bits = 0x09 → (s.core c).syn.bar[id] = .arrived →
      exec (.waitTimeout c) s = .next (counted.modCtl c done)) ∧
    (opc48 bits = 0x20 → s.destClosed m = false → (s.destFree m = false ∨ (s.core c).mu.replyFree = 0) →
      exec (.waitTimeout c) s = .next (counted.modCtl c done)) ∧
    (opc48 bits = 0x21 → (s.core c).mu.rp = [] → exec (.waitTimeout c) s = .next ((counted.modVec c (fun v => { v with pend := v.pend ++
      [{ due := (s.part p).count + 2, dest := .line (Fin.ofNat 32 (fld w 39 35)) (Fin.ofNat 32 (fld w 34 30) + 1) 0,
         flags := 0, through := none, bundle := (s.core c).ctl.pc }] })).modCtl c done)) ∧
    (opc48 bits = 0x23 → (∀ x ∈ s.txParts c (fld w 39 24), s.destClosed x.2 = false) →
      (∃ x ∈ s.txParts c (fld w 39 24), x.1 ∉ (s.core c).mu.txHeld ∧ s.destFree x.2 = false) →
      Completes (.waitTimeout c) s (fun t => (t.core c).mu.txHeld = [] ∧ (t.core c).mu.rpHeld = (s.core c).mu.rpHeld - (s.core c).mu.txHeld.length ∧
        (t.core c).ctl = done (s.core c).ctl ∧ (t.core c).syn = { (s.core c).syn with tmout := satAdd (s.core c).syn.tmout 1 } ∧
        (∀ d, (t.core d).mu.rq = (s.core d).mu.rq) ∧ t.net = s.net ∧ t.mem = s.mem ∧ t.parts = s.parts)))

/-- A barrier's rows on a partition-wide id: the root counts a core's arrival when it reaches it and completes with the last member's; a cycle later it sends the completion, which reaches each core 4 d cycles after that; there the core's arrival is completed. A ready spanning completion at its due count makes its id idle in every core of the partition. -/
def Obligations.BarriersCompleteAfterTheLastArrival : Prop :=
  (∀ (s : State) (c : CoreId) (p : PartId) (id : Fin 16) (x : CoreId × Nat), s.liveOf c = some p →
    (s.part p).roots[id].coming.find? (fun e => e.1 == c && e.2 ≤ (s.part p).now) = some x →
    (s.core c).syn.scopeOf id ≠ 2 →
    let arrived := setBit (s.part p).roots[id].arrived c.val true
    let full := s.rootFull p arrived x.2
    exec (.barrierRootArrival c id) s = .next (s.modPart p (fun q => { q with roots := q.roots.set id { q.roots[id] with
      coming := q.roots[id].coming.erase x, arrived := if full then 0 else arrived,
      full := if full then some x.2 else q.roots[id].full } }))) ∧
  (∀ (s : State) (p : PartId) (id : Fin 16) (r : Nat), (s.part p).roots[id].full = some r → (s.part p).live = true →
    (s.part p).cycDone = true → r + 1 ≤ (s.part p).now → (s.part p).roots[id].going = [] → (s.part p).armed = none →
    exec (.barrierCompletionSend p id) s = .next (s.modPart p (fun q => { q with roots := q.roots.set id { q.roots[id] with
      full := none, going := (s.coresOf p).map (fun c => (c, r + 1 + 4 * depth c)) } }))) ∧
  (∀ (s : State) (c : CoreId) (p : PartId) (id : Fin 16) (x : CoreId × Nat), s.liveOf c = some p →
    (s.part p).roots[id].going.find? (fun e => e.1 == c && e.2 ≤ (s.part p).now) = some x → (s.part p).committed = none →
    (s.core c).syn.bar[id] = .arrived →
    exec (.barrierCompletionArrival c id) s = .next ((s.modSyn c (fun y => { y with bar := y.bar.set id .completed })).modPart p
      (fun q => { q with roots := q.roots.set id { q.roots[id] with going := q.roots[id].going.erase x } }))) ∧
  (∀ (s : State) (p : PartId) (id : Fin 16), (s.part p).live = true → (s.part p).cycDone = false → (s.part p).issuing = true →
    (s.part p).roots[id].spanWaiting = true → (s.part p).roots[id].spanReady = true →
    (s.part p).roots[id].spanDue ≤ (s.part p).icount.toNat → (s.part p).armed = none →
    Completes (.spanCompletionDue p id) s (fun t =>
      (∀ c, s.partOf c = some p → (s.core c).syn.bar[id] = .arrived → (t.core c).syn.bar[id] = .idle) ∧
      (∀ c, s.partOf c ≠ some p → t.core c = s.core c) ∧
      (t.part p).roots[id] = { (s.part p).roots[id] with spanWaiting := false, spanReady := false, spanCommit := false } ∧
      (∀ q, q ≠ p → t.part q = s.part q) ∧ t.mem = s.mem))

/-! ## The stream slot and chains -/

/-- SCHN starts its chain in a free slot, eight list lines planned from the next issue count on, or waits in a busy slot's latch, where it replaces a waiting one and counts it dropped. A tile move's block issues where the scoreboard has room for it, and waits to lag where it has not. SREF sends one refresh per mask bit in scheduled mode and none in normal mode. Beside the stream engine only the partition's planned accesses change. -/
def Obligations.StreamSlotStartsChainsAndBlocks : Prop :=
  ∀ (s : State) (c : CoreId) (p : PartId) (w : BitVec 88), s.partOf c = some p →
    let q := s.part p
    let n := schnSlot w
    let base := (schnBase (s.core c).ctl w).toNat
    let planned := fun (rs : List Resv) => s.modPart p (fun q => { q with resv := rs })
    (Clean s c (s.strCauses c (0x01#8 ++ w)) → (s.core c).str.chains[n] = none → (s.core c).str.latches[n] = none →
      ∃ rs, exec (.schn c w) s = .next ((planned rs).modStr c (fun u => { u with
        nextId := u.nextId + 1
        chains := u.chains.set n (some {
          cid := u.nextId, base := base, n := schnCount w, got := [],
          reads := (List.range (min 8 (schnCount w / 2 + 1))).map (fun m => (m, q.count + 1 + m, false)),
          nextDesc := 1, planned := q.count + 9, seed := 0, elems := 0, bundle := (s.core c).ctl.pc, late := false, stuck := false }) }))) ∧
    (Clean s c (s.strCauses c (0x01#8 ++ w)) → ((s.core c).str.chains[n] ≠ none ∨ (s.core c).str.latches[n] ≠ none) →
      exec (.schn c w) s = .next (s.modStr c (fun u => { u with
        latches := u.latches.set n (some { base := base, n := schnCount w, bundle := (s.core c).ctl.pc })
        dropped := if u.latches[n] = none then u.dropped else satAdd u.dropped 1 }))) ∧
    (∀ (i : Instr) (opc : BitVec 8) (width : Nat),
      (i, opc, width) ∈ [(Instr.stile c w, 0x02#8, 0), (.sttx1 c w, 0x10#8, 1), (.sttx2 c w, 0x11#8, 2), (.sttx4 c w, 0x12#8, 4)] →
      Clean s c (s.strCauses c (opc ++ w)) →
      let b := s.slotBlock c width w
      ((s.core c).str.room b c = true → ∃ rs, exec i s = .next ((planned rs).modStr c (fun u =>
        let b := { b with id := u.nextId, issued := q.now, count := q.count }
        { u with nextId := u.nextId + 1, blocks := u.blocks ++ [b], board := u.board ++ b.ranges c }))) ∧
      ((s.core c).str.room b c = false →
        exec i s = .next (s.modStr c (fun u => { u with waiting := u.waiting ++ [{ b with lag := true }] })))) ∧
    (Clean s c (s.strCauses c (0x03#8 ++ w)) →
      let stack := s.grade.stacks.getD (fld w 87 85) 0
      exec (.sref c w) s = .next { s with transit := s.transit ++
        if q.pr.refm then ((List.range 64).filter (fun j => bit w j)).map (fun j =>
          { at_ := q.now + lq c stack, core := c, place := 0, pc := 64 * stack + (q.pr.pcBase.toNat + j), req := .refresh false })
        else [] })

/-- A chain's rows: a latched chain starts late once its slot is free; a planned list line is read in its issue count, a late one from its cycle on in an idle slot; its descriptors join the chain, and the first line's HEAD gives seed and collision budget; a due block that finds room issues, one that finds none waits; the first waiting block that finds room issues, else a lagging chain's, and is counted. -/
def Obligations.ChainsReadTheirListAndIssueBlocks : Prop :=
  ∀ (s : State) (c : CoreId) (p : PartId) (n : Fin 16), s.partOf c = some p → (s.part p).live = true → (s.core c).ctl.halted = false →
    let q := s.part p
    let u := (s.core c).str
    let planned := fun (rs : List Resv) => s.modPart p (fun q => { q with resv := rs })
    (∀ st, u.chains[n] = none → u.latches[n] = some st →
      exec (.chainLatchStart c n) s = .next (s.modStr c (fun u => { u with
        latches := u.latches.set n none, nextId := u.nextId + 1
        chains := u.chains.set n (some {
          cid := u.nextId, base := st.base, n := st.n, got := [],
          reads := (List.range (min 8 (st.n / 2 + 1))).map (fun m => (m, q.now + 1 + m, true)),
          nextDesc := 1, planned := q.count + 9, seed := 0, elems := 0, bundle := st.bundle, late := true, stuck := false }) }))) ∧
    (∀ ch m at_ late before after, u.chains[n] = some ch → ch.reads = before ++ (m, at_, late) :: after → (m, at_, late) ∉ before →
      (∀ r ∈ before, s.readReady c p ch r = false) → q.cycDone = false →
      (if late = true then at_ ≤ q.now ∧ s.idle p (resRead c (bankGroup (ch.base + 64 * m))) = true else at_ = q.count ∧ q.issuing = true) →
      let a := ch.base + 64 * m
      let l := s.line a
      let ch' := { ch with reads := before ++ after, got := ch.got ++ lineDescs ch m l }
      let t := s.modPart p (fun q => { q with used := resRead c (bankGroup a) :: q.used })
      s.poisoned a = false →
      (m ≠ 0 → exec (.descriptorLineRead c n .clean) s = .next (t.modStr c (fun u => { u with chains := u.chains.set n (some ch') }))) ∧
      (m = 0 → headBad (l.extractLsb' 0 256) = [] → exec (.descriptorLineRead c n .clean) s = .next (t.modStr c (fun u => { u with
        chains := u.chains.set n (some { ch' with seed := l.extractLsb' 0 32 })
        budgets := u.budgets ++ [{ cid := ch.cid, cbud := fld l 79 64, sum := 0, past := false }] })))) ∧
    (∀ ch d x, u.chains[n] = some ch → ch.next = some (d, x) → ch.planned + dGap d = q.count → ch.late = false → ch.stuck = false →
      q.cycDone = true → q.issued = true → (∀ m < n, u.dueAt m q.count = false) →
      let b := s.chainBlock c n ch d x false
      let isX := match x with | some x => dKind x == 6 | none => false
      (u.room b c = false → exec (.blockIssue c n) s =
        .next (s.modStr c (fun u => { u with chains := u.chains.set n (some { ch with stuck := true }) }))) ∧
      (u.room b c = true → s.refusal c ch b x = none → b.kindBad c = none →
        (∀ s1 s2, s.claim c b.planner (s.allClaims b (s.planOf c)) = (none, s1) →
          s1.claim c { b.planner with runs := false }
            (match ch.plans ch.nextDesc with | some m => [readClaim c (ch.base + 64 * m) (b.count + 1)] | none => []) = (none, s2) →
        ∃ rs, exec (.blockIssue c n) s = .next ((planned rs).modStr c (fun u =>
          let b := { b with id := u.nextId, issued := q.now, count := q.count }
          { u with nextId := u.nextId + 1, blocks := u.blocks ++ [b], board := u.board ++ b.ranges c,
                   chains := u.chains.set n (ch.afterBlock b isX q.now) }))))) ∧
    (q.cycDone = true →
      (∀ w, u.ready c = some w →
        exec (.blockLagIssue c) s = .next (s.modStr c (fun u =>
          let b := { w with id := u.nextId, issued := q.now, count := q.count }
          { u with waiting := u.waiting.erase w, nextId := u.nextId + 1, blocks := u.blocks ++ [b], board := u.board ++ b.ranges c,
                   lag := if b.lag then satAdd u.lag 1 else u.lag }))) ∧
      (∀ ch d x, u.ready c = none → u.chains[n] = some ch → ch.next = some (d, x) → u.lagsAt n q.count = true →
        let b := s.chainBlock c n ch d x true
        let isX := match x with | some x => dKind x == 6 | none => false
        u.room b c = true → (∀ m < n, u.lagsAt m q.count = false) → s.refusal c ch b x = none → b.kindBad c = none →
        exec (.blockLagIssue c) s = .next (s.modStr c (fun u =>
          let b := { b with id := u.nextId, issued := q.now, count := q.count }
          { u with nextId := u.nextId + 1, blocks := u.blocks ++ [b], board := u.board ++ b.ranges c, lag := satAdd u.lag 1,
                   chains := u.chains.set n (ch.afterBlock b isX q.now) }))))

/-! ## Lines of stream blocks -/

/-- A block's next source line in its access cycle. Of a block on time (LINE_ACCESS): a line of the own slice is read at once and arrives 2 cycles later, one of a tile 1 cycle later; a line of another core's slice is read there 4 h cycles later and comes back 4 h + 2 cycles after that; an HBM line is requested and enters its queue LQ cycles later; one that finds no staging entry waits unsent, and is late. Of a lagging block (LATE_SOURCE_ACCESS) every line is counted late; what finds no idle slot or free links waits, and is accessed in the first cycle that has them, while the lines after it go on. -/
def Obligations.SourceLinesAreReadOrRequested : Prop :=
  ∀ (s : State) (c : CoreId) (p : PartId) (blk : Nat) (b : Block), s.liveOf c = some p → s.blockOf c blk = some b → b.indexed = false →
    let now := (s.part p).now
    let use := fun (s : State) (r : Nat) => s.modPart p (fun q => { q with used := r :: q.used })
    let mod := fun (s : State) (f : LineInFlight → LineInFlight) (i : Nat) => s.modStr c (fun u => { u with blocks := u.blocks.map (fun y =>
      if y.id = b.id then { y with srcs := y.srcs.map (fun z => if z.idx = i then f z else z) } else y) })
    let late := fun (s : State) => s.modStr c (fun u => { u with late := u.late + 1 })
    let begin := fun (s : State) (x : LineInFlight) => s.modStr c (fun u => { u with
      blocks := u.blocks.map (fun y => if y.id = b.id then { y with srcs := y.srcs ++ [x], access := y.access + 1 } else y) })
    let ask := fun (s : State) (a : Nat) => s.sendHbm c (now + lq c (s.stackAt a)) (b.place b.access) (s.channel a) (.read c b.id b.access a)
    let line := fun (a : Nat) (late : Bool) => ({ idx := b.access, addr := a, due := now, data := none, late := late, unsent := false } : LineInFlight)
    (b.lag = false →
      (b.remoteDue now = none → b.access < b.srcCount → b.issued + b.accessOf (s.planOf c) b.access ≤ now →
        (b.srcAt c b.access = none → exec (.lineAccess c blk .clean) s = .next (begin s
          { line 0 false with due := now + b.flight (s.planOf c) (dSrc b.desc), data := some 0 })) ∧
        (∀ a, b.srcAt c b.access = some a →
          (placeOf a = .slice c → s.poisoned a = false → exec (.lineAccess c blk .clean) s =
            .next (begin (use s (resRead c (bankGroup a))) { line a false with due := now + 2, data := some (s.line a) })) ∧
          (∀ o e t ln, placeOf a = .tile o e t ln → exec (.lineAccess c blk .clean) s =
            .next (begin (use s (resBank o e (bankOf t.val ln))) { line a false with due := now + 1, data := some (s.line a) })) ∧
          (∀ o, placeOf a = .slice o → o ≠ c → exec (.lineAccess c blk .clean) s = .next (begin s { line a false with due := now + 4 * hops c o })) ∧
          (placeOf a = .hbm → (s.core c).str.excess = false → exec (.lineAccess c blk .clean) s =
            .next (begin (ask s a) { line a false with due := now + dRlat b.desc })) ∧
          (placeOf a = .hbm → (s.core c).str.excess = true → exec (.lineAccess c blk .clean) s =
            .next (begin (late s) { line a true with unsent := true })))) ∧
      (∀ x o, b.remoteDue now = some x → placeOf x.addr = .slice o → s.poisoned x.addr = false →
        exec (.lineAccess c blk .clean) s = .next (mod (use s (resRead o (bankGroup x.addr)))
          (fun z => { z with data := some (s.line x.addr), due := now + 4 * hops c o + 2 }) x.idx))) ∧
    (b.lag = true →
      let remote := b.srcs.find? (fun x => x.data.isNone && !x.unsent && !isHbm x.addr && decide (x.due ≤ now) && s.slotIdle p x.addr false && !s.indexedFirst x.addr false)
      (remote = none → s.waitingLine c p b = none → b.access < b.srcCount → b.issued + b.accessOf (s.planOf c) b.access ≤ now →
        (b.srcAt c b.access = none → exec (.lateSourceAccess c blk .clean) s = .next (begin (late s)
          { line 0 true with due := now + b.flight (s.planOf c) (dSrc b.desc), data := some 0 })) ∧
        (∀ a, b.srcAt c b.access = some a →
          let sent := placeOf a = .hbm ∧ s.routeFree p (routeStack c (s.stackAt a)) = true ∧ (s.core c).str.excess = false
          (sent → exec (.lateSourceAccess c blk .clean) s = .next (begin (ask (late s) a) { line a true with due := now + dRlat b.desc })) ∧
          (¬sent → exec (.lateSourceAccess c blk .clean) s = .next (begin (late s) { line a true with unsent := true })))) ∧
      (∀ x, remote = none → s.waitingLine c p b = some x →
        (placeOf x.addr = .slice c → s.poisoned x.addr = false → exec (.lateSourceAccess c blk .clean) s =
          .next (mod (use s (resRead c (bankGroup x.addr))) (fun _ => { x with unsent := false, data := some (s.line x.addr), due := now + 2 }) x.idx)) ∧
        (∀ o, placeOf x.addr = .slice o → o ≠ c → exec (.lateSourceAccess c blk .clean) s =
          .next (mod s (fun _ => { x with unsent := false, due := now + 4 * hops c o }) x.idx)) ∧
        (∀ o e t ln, placeOf x.addr = .tile o e t ln → exec (.lateSourceAccess c blk .clean) s = .next (mod
          (use (if (s.core c).cfg.legacy = true then use s (resWide o e * 64 + ln / 8 + 1) else s) (resBank o e (bankOf t.val ln)))
          (fun _ => { x with unsent := false, data := some (s.line x.addr), due := now + 1 }) x.idx))) ∧
      (∀ x o, remote = some x → placeOf x.addr = .slice o → s.poisoned x.addr = false →
        exec (.lateSourceAccess c blk .clean) s = .next (mod (use s (resRead o (bankGroup x.addr)))
          (fun z => { z with data := some (s.line x.addr), due := now + 4 * hops c o + 2 }) x.idx)))

/-- Excess HBM requests and arrivals: with the staging full a request waits unsent and its line counts late; the first that waits is sent in the first cycle in which an entry is free, one of a lagging block only when its links are free too, while those behind it go on. A line that has come is staged; the destination lines that it lets go are released to their destination, to be written in a later cycle; with its last line a tile's source range leaves the scoreboard. -/
def Obligations.LinesAreStagedAndReleased : Prop :=
  ∀ (s : State) (c : CoreId) (p : PartId) (blk : Nat) (b : Block), s.liveOf c = some p → s.blockOf c blk = some b →
    let now := (s.part p).now
    let u := (s.core c).str
    let mod := fun (s : State) (f : Block → Block) =>
      s.modStr c (fun u => { u with blocks := u.blocks.map (fun y => if y.id = blk then f y else y) })
    (∀ a, b.lag = false → b.indexed = false → b.remoteDue now = none → b.access < b.srcCount →
      b.issued + b.accessOf (s.planOf c) b.access ≤ now → b.srcAt c b.access = some a → placeOf a = .hbm → 4096 ≤ u.stagingUsed →
      exec (.lineAccess c blk .clean) s = .next ((mod s (fun y => { y with access := y.access + 1, srcs := y.srcs ++
        [{ idx := b.access, addr := a, due := now, data := none, late := true, unsent := true }] })).modStr c (fun u => { u with late := u.late + 1 }))) ∧
    (∀ x, firstRequest (u.waits.filter (fun y => !y.1.lag || s.routeFree p (routeStack c (s.stackAt y.2.addr)))) = some (b, x) →
      u.stagingUsed < 4096 →
      exec (.stagingFreeSend c) s = .next (mod (s.sendHbm c (now + lq c (s.stackAt x.addr)) (b.place x.idx) (s.channel x.addr) (.read c blk x.idx x.addr)) (fun y => { y with srcs := y.srcs.map (fun z =>
          if z.idx = x.idx then { z with unsent := false, due := now } else z) }))) ∧
    (∀ x l, b.arriving now = some x → x.data = some l → b.indexed = false →
      let b' := { b with
        srcs := b.srcs.filter (fun y => y.idx != x.idx), staged := b.staged ++ [(x.idx, l)], arrived := b.arrived ++ [(x.idx, now)] }
      Completes (.lineArrival c blk) s (fun t => OnlyStr c s t ∧
        (∃ outs : List LineOut, outs.map (fun o => (o.idx, o.addr, o.data, o.stage)) =
            (b'.letGo x.idx).map (fun j => (j, b.dstAt c j, b'.dataOf b'.got j, 0)) ∧ (∀ o ∈ outs, now < o.due) ∧
          t.blockOf c blk = some { b' with outs := b.outs ++ outs, released := b.released ++ b'.letGo x.idx }) ∧
        (t.core c).str.board = if b.fromTile && b'.srcs.isEmpty && b.access == b.srcCount
          then u.board.filter (fun r => !(r.blk == blk && r.source)) else u.board)) ∧
    (∀ x l, b.arriving now = some x → x.data = some l → b.indexed = true →
      exec (.lineArrival c blk) s = .next (mod s (fun y => { y with
        srcs := y.srcs.filter (fun y => y.idx != x.idx), staged := y.staged ++ [(x.idx, l)], arrived := y.arrived ++ [(x.idx, now)],
        outs := y.outs ++ [{ idx := x.idx, addr := dDst b.desc + 64 * x.idx, due := now + 1, data := l, late := x.late, stage := 0 }] })))

/-- A staged destination line j of a transposition, a transposing tile move or an MXS split is released once the lines it needs have come and its place in the order of release has: it goes to its destination in the next cycle, and the rest of the machine stays. -/
def Obligations.StagedLinesAreReleasedInOrder : Prop :=
  ∀ (s : State) (c : CoreId) (p : PartId) (blk : Nat) (b : Block) (j : Nat) (i : Instr), s.liveOf c = some p → s.blockOf c blk = some b →
    b.nextRelease (s.part p).now = some j → b.lastArrival j + b.lagOf j ≤ (s.part p).now →
    ((∃ xf, b.kind = .copy xf ∧ (xf = 1 ∨ xf = 2 ∨ xf = 3)) ∧ i = .transposeLineRelease c blk ∨
      (∃ st e t w, b.kind = .sttx st e t w) ∧ i = .quadrantLineRelease c blk ∨ b.kind = .copy 5 ∧ i = .mxsLineRelease c blk) →
    exec i s = .next (s.modStr c (fun u => { u with blocks := u.blocks.map (fun y => if y.id = blk then { y with
      released := y.released ++ [j]
      outs := y.outs ++ [{ idx := j, addr := b.dstAt c j, due := (s.part p).now + 1, data := b.dataOf b.got j,
                           late := b.lag || decide (b.issued + b.writeOf (s.planOf c) j < (s.part p).now + 1), stage := 0 }] } else y) }))

/-- A released line in its cycle, of a block on time (LINE_WRITE) or late (LATE_LINE_WRITE, in an idle slot or over free links): in the own slice or a tile it is written, visible from the next cycle, and counted; towards another slice it sets out; towards HBM its write request does. A late line whose place a later line of its block has already taken is counted and not written; one waits while the indexed path of its slice has an access to make. With its last line counted a block leaves the engine and the scoreboard. -/
def Obligations.DestinationLinesAreWrittenOrSent : Prop :=
  ∀ (s : State) (c : CoreId) (p : PartId) (blk : Nat) (b : Block) (o : LineOut) (i : Instr), s.liveOf c = some p → s.blockOf c blk = some b →
    let now := (s.part p).now
    let counted := { b with written := b.written + 1, outs := b.outs.filter (fun x => x.idx != o.idx) }
    let use := fun (s : State) (r : Nat) => s.modPart p (fun q => { q with used := r :: q.used })
    let wrote := fun (s : State) (r : Nat) => use { s with wbuf := s.wbuf ++ [(o.addr, o.data)] } r
    let free := o.late = true → s.indexedFirst o.addr true = false ∧ (if o.stage = 1 then s.slotIdle p o.addr true else s.lateFree c p o.addr true) = true
    let away := fun (s : State) (due : Nat) => s.modStr c (fun u => { u with blocks := u.blocks.map (fun y =>
      if y.id = blk then { y with outs := y.outs.map (fun x => if x.idx = o.idx then { x with stage := 1, due := due } else x) } else y) })
    let leaves := fun (t : State) => (counted.finished = false → t.blockOf c blk = some counted ∧ (t.core c).str.board = (s.core c).str.board) ∧
      (counted.finished = true → t.blockOf c blk = none ∧ ∀ r ∈ (t.core c).str.board, r.blk ≠ blk)
    ((b.indexed = true → o.late = true) → o.due ≤ now → b.outs = [o] → o.stage < 2 → i = (if o.late then .lateLineWrite c blk else .lineWrite c blk) → free →
      (b.superseded c o = false →
        (∀ k, placeOf o.addr = .slice k → (k = c ∨ o.stage = 1) →
          Completes i s (fun t => OnlyStr c (wrote s (resWrite k (bankGroup o.addr))) t ∧ leaves t)) ∧
        (∀ k e x ln, placeOf o.addr = .tile k e x ln →
          Completes i s (fun t => OnlyStr c (wrote (if o.late = true ∧ (s.core c).cfg.legacy = true then use s (resWide k e * 64 + ln / 8 + 1) else s)
            (resBank k e (bankOf x.val ln))) t ∧ leaves t)) ∧
        (∀ k, placeOf o.addr = .slice k → k ≠ c → o.stage = 0 → exec i s = .next (away s (now + 4 * hops c k))) ∧
        (placeOf o.addr = .hbm → o.stage = 0 →
          exec i s = .next (away (s.sendHbm c (now + lq c (s.stackAt o.addr)) (b.place o.idx) (s.channel o.addr) (.write c blk o.idx o.addr o.data)) 0))) ∧
      (b.superseded c o = true → Completes i s (fun t => t.mem = s.mem ∧ t.wbuf = s.wbuf ∧ t.transit = s.transit ∧
        (∀ d, d ≠ c → t.core d = s.core d) ∧ leaves t))) ∧
    (b.outs = [o] → o.due ≤ now → o.stage = 2 → Completes (.lineWrite c blk) s (fun t => OnlyStr c s t ∧ leaves t))

/-! ## Gather and scatter -/

/-- The indices of an indexed block: index line m is read in cycle P + 1 + m, a lagging block's in an idle slot; 3 cycles after its read its indices are examined in position order: those in range are kept, the others, as the policy says, skipped or clamped, and counted. -/
def Obligations.IndicesAreReadAndExamined : Prop :=
  ∀ (s : State) (c : CoreId) (p : PartId) (blk : Nat) (b : Block), s.liveOf c = some p → s.blockOf c blk = some b → b.indexed = true →
    let now := (s.part p).now
    let mod := fun (s : State) (f : Block → Block) =>
      s.modStr c (fun u => { u with blocks := u.blocks.map (fun y => if y.id = blk then f y else y) })
    (let a := b.indexBase + 64 * b.access;
      b.access < b.indexLines → b.issued + 1 + b.access ≤ now → (b.lag = true → s.slotIdle p a false = true) → s.poisoned a = false →
      exec (.indexLineRead c blk .clean) s = .next (mod (s.takeSlot p a false) (fun y => { y with
        access := b.access + 1, staged := y.staged ++ [(b.access, s.line a)], arrived := y.arrived ++ [(b.access, now)] }))) ∧
    (∀ m t, m = b.indices.length / 16 → b.arrived.find? (fun x => x.1 == m) = some (m, t) → t + 3 ≤ now →
      b.indices.length < dNidx b.desc →
      let xs := (List.range (min 16 (dNidx b.desc - 16 * m))).map (fun e => (b.got m).extractLsb' (32 * (e % 16)) 32)
      let inRange := fun x : BitVec 32 => 0 ≤ x.toInt ∧ x.toInt < (dSstr b.desc : Int)
      let out := (xs.filter (fun x => !decide (inRange x))).length
      (b.policy = 1 ∨ b.policy = 2 ∨ ∀ x ∈ xs, inRange x) →
      exec (.indexExamine c blk) s = .next ((mod s (fun y => { y with indices := y.indices ++ xs.map (fun x =>
        if inRange x then some x else if b.policy = 1 then none
        else some (if x.toInt < 0 then 0 else BitVec.ofNat 32 (dSstr b.desc - 1))) })).modStr c (fun u => { u with
          skipped := satAdd u.skipped (if b.policy = 1 then out else 0)
          clamped := satAdd u.clamped (if b.policy = 1 then 0 else out) })))

/-- The turn of a line of the block on the indexed path: a gathered line is read, a skipped one is zeros, and three cycles later it is due at its packed place; a line from HBM is requested, or waits, late, for a staging entry; a scattered line is read from its packed place, added to its table line where the block adds (the two reads in successive cycles where they share a bank group), and is due at the table three cycles later. The turn counts the cycles it came late as collision cycles, a line of a lagging block as late, and frees the path for the next cycle. -/
def Obligations.GatherTurnsMoveOneLine : Prop :=
  ∀ (s : State) (c : CoreId) (p : PartId) (blk : Nat) (b : Block), s.liveOf c = some p → (s.core c).str.turning = some b → b.id = blk →
    let u := (s.core c).str
    let now := (s.part p).now
    let e := dRows b.desc
    b.access < 2 ^ 40 → dNidx b.desc ≤ b.indices.length → u.turnDue b ≤ now → u.path ≤ now →
    let turned := fun (s : State) (f : Block → Block) => (s.modStr c (fun u => { u with
      path := now + 1, blocks := u.blocks.map (fun y => if y.id = blk then { f y with turn := y.turn + 1, lastTurn := now } else y) }))
    let late := fun (s : State) (l : Bool) => s.modStr c (fun u => { u with late := if l = true then u.late + 1 else u.late })
    let counted := fun (l : Bool) => (late s l).collide c b.cid (now - u.turnDue b)
    let start := counted b.lag
    let goes := fun (a : Nat) (l : Line) (y : Block) => { y with outs := y.outs ++ [{ idx := b.turn, addr := a, due := now + 3, data := l, late := false, stage := 0 }] }
    let index := b.indices.getD (b.turn / max e 1) none
    (b.kind = .gather → index = none →
      exec (.gatherTurn c blk ⟨.clean, .clean⟩) s = .next (turned start (goes (dDst b.desc + 64 * b.turn) 0))) ∧
    (∀ x, b.kind = .gather → index = some x →
      let a := dSrc b.desc + 64 * (e * x.toNat + b.turn % max e 1)
      (isHbm a = false → s.slotIdle p a false = true → s.poisoned a = false →
        exec (.gatherTurn c blk ⟨.clean, .clean⟩) s = .next (turned (start.takeSlot p a false) (goes (dDst b.desc + 64 * b.turn) (s.line a)))) ∧
      (isHbm a = true → u.excess = true → exec (.gatherTurn c blk ⟨.clean, .clean⟩) s = .next (turned (counted true)
        (fun y => { y with srcs := y.srcs ++ [{ idx := b.turn, addr := a, due := now, data := none, late := true, unsent := true }] }))) ∧
      (isHbm a = true → u.excess = false → exec (.gatherTurn c blk ⟨.clean, .clean⟩) s = .next (turned
        (start.sendHbm c (now + lq c (s.stackAt a)) (b.place b.turn) (s.channel a) (.read c blk b.turn a))
        (fun y => { y with srcs := y.srcs ++ [{ idx := b.turn, addr := a, due := now + dRlat b.desc, data := none, late := b.lag, unsent := false }] })))) ∧
    (∀ x, b.kind = .scatter → index = some x →
      let pk := dSrc b.desc + 64 * b.turn
      let a := dDst b.desc + 64 * (e * x.toNat + b.turn % max e 1)
      let key := 2 ^ 40 + b.turn
      s.slotIdle p pk false = true → s.poisoned pk = false →
      (b.addOp = 0 → exec (.gatherTurn c blk ⟨.clean, .clean⟩) s = .next (turned (start.takeSlot p pk false) (goes a (s.line pk)))) ∧
      (b.addOp ≠ 0 → s.pendingLine c a = false → s.slotIdle p a false = true → s.poisoned a = false →
        (∀ y ∈ b.staged, y.1 ≠ key) → bankGroup pk ≠ bankGroup a →
        exec (.gatherTurn c blk ⟨.clean, .clean⟩) s =
          .next (turned ((start.takeSlot p pk false).takeSlot p a false) (goes a (addLines b.addOp (s.line a) (s.line pk))))) ∧
      (b.addOp ≠ 0 → s.pendingLine c a = false → (∀ y ∈ b.staged, y.1 ≠ key) → bankGroup pk = bankGroup a →
        exec (.gatherTurn c blk ⟨.clean, .clean⟩) s = .next (((late s b.lag).takeSlot p pk false).modStr c (fun u => { u with blocks := u.blocks.map (fun y =>
          if y.id = blk then { y with staged := y.staged ++ [(key, s.line pk)] } else y) })))) ∧
    (∀ x l, b.kind = .scatter → index = some x → b.addOp ≠ 0 →
      let a := dDst b.desc + 64 * (e * x.toNat + b.turn % max e 1)
      b.staged.find? (fun y => y.1 == 2 ^ 40 + b.turn) = some (2 ^ 40 + b.turn, l) →
      s.pendingLine c a = false → s.slotIdle p a false = true → s.poisoned a = false →
      exec (.gatherTurn c blk ⟨.clean, .clean⟩) s = .next (turned ((counted false).takeSlot p a false) (goes a (addLines b.addOp (s.line a) l)))) ∧
    (b.kind = .scatter → index = none → Completes (.gatherTurn c blk ⟨.clean, .clean⟩) s (fun t => OnlyStr c s t ∧ (t.core c).str.path = now + 1 ∧
      (t.core c).str.coll = u.coll + BitVec.ofNat 64 (now - u.turnDue b)))

/-- A due line of an indexed block that waits behind no earlier write of its line: written in an idle slot of the own slice, the cycles it waited for it collision cycles, or sent to HBM. -/
def Obligations.IndexedLinesAreWritten : Prop :=
  ∀ (s : State) (c : CoreId) (p : PartId) (blk : Nat) (b : Block) (o : LineOut), s.liveOf c = some p → s.blockOf c blk = some b →
    b.indexed = true → b.outs = [o] → o.late = false → o.stage = 0 → o.due ≤ (s.part p).now →
    (∀ x ∈ (s.core c).str.blocks, x.indexed = true → x.id ≤ blk → ∀ y ∈ x.outs, y.addr = o.addr → y.stage = 0 → x.id = blk ∧ o.idx ≤ y.idx) →
    let now := (s.part p).now
    let u := (s.core c).str
    let counted := { b with written := b.written + 1, outs := [] }
    (placeOf o.addr = .slice c → s.idle p (resWrite c (bankGroup o.addr)) = true →
      Completes (.indexedWrite c blk) s (fun t =>
        OnlyStr c ({ s with wbuf := s.wbuf ++ [(o.addr, o.data)] }.modPart p (fun q => { q with used := resWrite c (bankGroup o.addr) :: q.used })) t ∧
        (t.core c).str.coll = u.coll + BitVec.ofNat 64 (now - o.due) ∧
        (counted.finished = false → t.blockOf c blk = some counted) ∧ (counted.finished = true → t.blockOf c blk = none))) ∧
    (placeOf o.addr = .hbm → Completes (.indexedWrite c blk) s (fun t =>
      OnlyStr c (s.sendHbm c (now + lq c (s.stackAt o.addr)) (b.place o.idx) (s.channel o.addr) (.write c blk o.idx o.addr o.data)) t ∧
      (t.core c).str.coll = u.coll ∧
      t.blockOf c blk = some { b with outs := [{ o with stage := 1, due := 0 }] }))

/-! ## HBM -/

/-- A pseudo-channel takes requests in their order: the request due now enters its queue; the first starts when the channel serves nothing, is not busy and its last start lies 2 ns back; a read's data, taken from memory at its start (DEDUCED, log 69), comes into the block's line, late when past its due cycle, and a late line arrives as it comes; a write is in memory 2 ns after its start, every other byte unchanged. -/
def Obligations.HbmRequestsAreServedInOrder : Prop :=
  ∀ (s : State) (k : Fin 6) (j : Fin 64),
    let ch := chanOf k j
    let q := s.pc ch
    (∀ x, s.nextEntry ch = some x → q.forcedAhead = false →
      exec (.hbmQueueEntry k j) s = .next ({ s with transit := s.transit.erase x }.modPc ch (fun q => { q with
        queue := q.queue ++ [x.req]
        lastRefresh := match x.req with | .refresh _ => s.ns | _ => q.lastRefresh }))) ∧
    (∀ r rest, q.queue = r :: rest → q.serving = none → q.busyTo ≤ s.ns → (∀ t, q.lastStart = some t → t + 2 ≤ s.ns) →
      exec (.hbmRequestStart k j) s = .next (s.modPc ch (fun q => match r with
        | .read _ _ _ a => { q with queue := rest, lastStart := some s.ns, busyTo := s.ns + 2, reads := q.reads ++ [(r, s.line a)] }
        | .refresh _ => { q with queue := rest, lastStart := some s.ns, busyTo := s.ns + 96, serving := some (r, s.ns) }
        | .look _ => { q with queue := rest, lastStart := some s.ns, busyTo := s.ns + 2 }
        | _ => { q with queue := rest, lastStart := some s.ns, busyTo := s.ns + 2, serving := some (r, s.ns) }))) ∧
    (∀ c blk line addr d rest b, q.reads = (.read c blk line addr, d) :: rest → s.blockOf c blk = some b →
      let come := s.nowOf c + lq c k.val
      Completes (.hbmReadReady k j .clean) s (fun t =>
        OnlyStr c (s.modPc ch (fun q => { q with reads := rest })) t ∧
        (∃ f, t.blockOf c blk = some { b with forced := f, srcs := b.srcs.map (fun x =>
          if x.idx = line then { x with data := some d, due := if x.late then come else max x.due come, late := x.late || decide (x.due < come) } else x) }) ∧
        (t.core c).str.late = (s.core c).str.late + (if b.srcs.any (fun x => x.idx == line && x.due < come && !x.late) then 1 else 0))) ∧
    (∀ c blk line addr d t0, q.serving = some (.write c blk line addr d, t0) → t0 + 2 ≤ s.ns → MemoryCanonical s →
      Completes (.hbmWriteDone k j) s (fun t =>
        t.line addr = d ∧ (∀ a, a < addr ∨ addr + 64 ≤ a → memRead t.mem a = memRead s.mem a) ∧
        t.pcs = (s.modPc ch (fun q => { q with serving := none })).pcs ∧
        (t.core c).str.blocks = (s.core c).str.blocks.map (fun b => if b.id = blk then { b with outs := b.outs.map (fun o =>
          if o.idx = line then { o with stage := 2, due := s.nowOf c + lq c k.val } else o) } else b) ∧
        t.parts = s.parts ∧ t.transit = s.transit ∧ t.ev = s.ev)) ∧
    (∀ addr d t0, q.serving = some (.other addr d, t0) → t0 + 2 ≤ s.ns → MemoryCanonical s → Completes (.hbmWriteDone k j) s (fun t =>
        t.line addr = d ∧ (∀ a, a < addr ∨ addr + 64 ≤ a → memRead t.mem a = memRead s.mem a) ∧
        t.pcs = (s.modPc ch (fun q => { q with serving := none })).pcs ∧ t.parts = s.parts ∧ t.transit = s.transit ∧ t.ev = s.ev))

/-- Refresh: a normal-mode pseudo-channel gets one at its interval, ahead of what waits (DEDUCED, logs 69 and 70); it ends 96 ns after its start and is counted; the safety net inserts one at a scheduled channel's deadline, a miss while the partition issues; a first miss halts nothing, a second within 15,974,400 ns halts the partition's lowest core with reason 0x14. -/
def Obligations.PseudoChannelsAreRefreshed : Prop :=
  ∀ (s : State) (k : Fin 6) (j : Fin 64),
    let ch := chanOf k j
    let q := s.pc ch
    (s.grade.fitted k.val = true → s.scheduledRefresh ch = false → q.lastRefresh + (if s.hbm[k].hot then 1950 else 3900) ≤ s.ns →
      exec (.normalRefresh k j) s = .next (s.modPc ch (fun q => { q with queue := .refresh false :: q.queue, lastRefresh := s.ns }))) ∧
    (∀ f t0, q.serving = some (.refresh f, t0) → t0 + 96 ≤ s.ns →
      exec (.refreshDone k j) s = .next (s.modPc ch (fun q => { q with serving := none, refreshes := q.refreshes + 1 }))) ∧
    (∀ p, s.ownerOf ch = some p → s.scheduledRefresh ch = true → q.lastRefresh + 1950 ≤ s.ns →
      let miss := (s.part p).issuing
      let twice := miss ∧ ∃ t0, q.lastMiss = some t0 ∧ s.ns ≤ t0 + 15974400
      let after : PseudoChannel := { q with
        queue := .refresh true :: q.queue, lastRefresh := s.ns, inserted := satAdd q.inserted 1
        missed := if miss then satAdd q.missed 1 else q.missed, lastMiss := if miss then some s.ns else q.lastMiss }
      Completes (.safetyNetRefresh k j) s (fun t => t.pc ch = after ∧ t.mem = s.mem ∧ (∀ ch', ch' ≠ ch → t.pc ch' = s.pc ch') ∧
        (¬ twice → t.parts = s.parts ∧ ∀ c, (t.core c).ctl = (s.core c).ctl ∧ (t.core c).halt = (s.core c).halt) ∧
        (twice → ∀ c, (s.coresOf p).head? = some c → (s.core c).ctl.halted = false →
          (t.core c).ctl.halted = true ∧ (t.core c).halt.reason = 0x14)))

/-- The scrubber reads the next weight-class line, from the lowest again after the last, in an idle read slot that no line of the manager die wants, and goes on behind it, a pass counted at the end of the classes; a corrected line waits to be written back, and is, in an idle write slot; an uncorrectable one is marked poisoned with the record SLICE_UE (0x0201) of severity 4, of its partition and core, with its address and 0 for the scrubber. That no further line is read while a corrected one waits is the model's choice (DESIGN CHOICE, log 71). -/
def Obligations.ScrubberReadsAndWritesBack : Prop :=
  ∀ (s : State) (c : CoreId),
    let g := (s.core c).cfg
    let rs := (s.core c).weightRanges c
    (∀ a ecc, (nextScrub rs g.scrubAt = some a ∨ nextScrub rs g.scrubAt = none ∧ nextScrub rs 0 = some a) → g.scrubBack = none →
      let read := resRead c (bankGroup a)
      s.spare c read = true → s.spare c (resScrub c) = true → s.wanted c read = false → sliceOwner a = some c →
      let found := s.found a ecc
      let n := eccCounts (s.codeWords a) found
      Completes (.scrubRead c ecc) s (fun t => t.mem = s.mem ∧ (t.core c).ctl = (s.core c).ctl ∧
        t.softUsed = resScrub c :: read :: s.softUsed ∧ t.parts = s.parts ∧
        (t.core c).cfg.scrubAt = a + 64 ∧
        (t.core c).cfg.scrubPasses = g.scrubPasses + (if (nextScrub rs (a + 64)).isNone then 1 else 0) ∧
        (t.core c).cfg.scrubBack = (match found with | .corrected _ => some (a, s.line a) | _ => none) ∧
        (t.core c).cfg.poison = (if found.failed && !g.poison.contains a then g.poison ++ [a] else g.poison) ∧
        (t.core c).cfg.ce = satAdd g.ce n.2 ∧ (t.core c).cfg.ue = satAdd g.ue n.1 ∧
        t.ev = (if found.failed then (s.event 0x201 4 (s.partOf c) (some c) (leBytes 8 a ++ leBytes 1 0)).ev else s.ev))) ∧
    (∀ a l, g.scrubBack = some (a, l) → sliceOwner a = some c → s.spare c (resWrite c (bankGroup a)) = true →
      s.wanted c (resWrite c (bankGroup a)) = false → s.wbuf.any (fun e => e.1 == a) = false → MemoryCanonical s →
      Completes (.scrubWriteback c) s (fun t => t.line a = l ∧ (∀ x, x < a ∨ a + 64 ≤ x → memRead t.mem x = memRead s.mem x) ∧
        (t.core c).cfg = { g with scrubBack := none, poison := g.poison.filter (fun x => x != a) } ∧
        (t.core c).ctl = (s.core c).ctl ∧ t.ev = s.ev ∧ t.parts = s.parts))

/-! ## The matrix engines -/

/-- Every MMA-family instruction whose checks pass enters its engine behind the operations in flight: with its opcode, fields, read factor and passes, its first read in the next issue count (at its wide-port slot in legacy mode), executing unless its predicate flag differs, nothing written yet; the accumulators it names take its shape. Beside the engine only the partition's planned accesses change. In each cycle y of its T read cycles KCYC counts 1 and ZBLK the blocks eligible for gating; no block is gated in cycle p, only eligible ones of an operation that executes, and of a predicated-off one 4 y blocks while the set grows, 64 at most and 4 (T - y) while it shrinks when T is 128, at most 4 changes a cycle otherwise while the next 16 cycles belong to it (05 R131-R133). -/
def Obligations.MatrixInstructionsEnterTheirEngine : Prop :=
  (∀ (s : State) (c : CoreId) (p : PartId) (e : EngId) (w : BitVec 56), s.partOf c = some p →
    ∀ i opc x, (i, opc) ∈ mmaRows c e w → mmaForm opc.toNat = some x → Clean s c (s.mxCauses c e (opc ++ w)) →
      ∃ rs, exec i s = .next ((s.modPart p (fun q => { q with resv := rs })).modMx c e (fun m => { m with
        ops := m.ops ++ [{ opc := opc, w := w, bundle := (s.core c).ctl.pc,
                           p := if x.legacy then firstRead true (s.part p).count else (s.part p).count + 1,
                           f := readFactor (s.core c).cfg e x w, passes := x.passes,
                           exec := !bit w 5 || (s.core c).ctl.k[(Fin.ofNat 4 (fld w 3 2) : Fin 4)] == bit w 4,
                           next := 0, a := [], b := [], sa := [], sb := [], md := [] }]
        shp0 := if x.isComplex || !bit w 7 then some (w.extractLsb' 10 2) else m.shp0
        shp1 := if x.isComplex || bit w 7 then some (w.extractLsb' 10 2) else m.shp1 }))) ∧
  (∀ (s : State) (c : CoreId) (e : EngId) (o : MmaOp) (y : Nat),
    let t := s.countGating c e o y
    let m := (s.core c).mx[e]
    let m' := (t.core c).mx[e]
    OnlyMx c e s t ∧ m' = { m with kcyc := m.kcyc + 1, zblk := m.zblk + BitVec.ofNat 64 (ones (s.eligible c e o y)), gated := m'.gated } ∧
    (y = 0 → m'.gated = 0) ∧ (o.exec = true → m'.gated &&& ~~~s.eligible c e o y = 0) ∧
    (o.exec = false → o.t = 128 → 0 < y → y < 128 → ones m'.gated = min 64 (min (4 * y) (4 * (128 - y)))) ∧
    (o.exec = false → o.t ≠ 128 → 0 < y → y + 16 < o.t → ones (m.gated ^^^ m'.gated) ≤ 4))

/-- MDRN and MRQL enter their engine: a drain of the accumulator it names, in its mode and that accumulator's shape; a latch load from its tile block. In its cycle a chunk of a drain is on the engine's lanes for the bundle at hand, and with chunk 127 the drain ends. Two cycles after its read a chunk holds what its mode gives of each entry: the entry itself, the entry times its channel's MULT over 2 to the SHIFT rounded to nearest, a tie to even or away from 0 by RNA, and clamped to 8 or 4 bits, the entry as BF16, or its element code with the scale byte of its group of lanes (05 R138, R139). -/
def Obligations.DrainsAndLatchLoadsEnterTheirEngine : Prop :=
  ∀ (s : State) (c : CoreId) (p : PartId) (e : EngId) (w : BitVec 56), s.partOf c = some p →
    let m := (s.core c).mx[e]
    (Clean s c (s.mxCauses c e (0x01#8 ++ w)) →
      exec (.mdrn c e w) s = .next (s.modMx c e (fun m => { m with drains := m.drains ++
        [{ d := (s.part p).count, acs := bit w 55, mode := w.extractLsb' 52 3, qg := w.extractLsb' 50 2,
           shp := (if bit w 55 then m.shp1 else m.shp0).getD 0, chunks := [] }] }))) ∧
    (Clean s c (s.mxCauses c e (0x02#8 ++ w)) →
      ∃ rs, exec (.mrql c e w) s = .next ((s.modPart p (fun q => { q with resv := rs })).modMx c e (fun m => { m with mrql := m.mrql ++
        [{ s := (s.part p).count, tq := Fin.ofNat 16 (fld w 55 52), blk := w.extractLsb' 50 2, bundle := (s.core c).ctl.pc }] }))) ∧
    (∀ d n ch, (s.part p).issuing = true → (s.part p).cycDone = false → m.chunkDue (s.part p).icount.toNat = some (d, n, ch) →
      exec (.drainChunkPresent c e) s = .next (s.modMx c e (fun m => { m with
        present := some ch
        drains := if n = 127 then m.drains.erase d
          else m.drains.map (fun x => if x = d then { x with chunks := x.chunks.filter (fun y => y.1 != n) } else x) }))) ∧
    (∀ (m : MatrixEngine) (d : DrainOp) (n : Nat) (raw : BitVec 4096), d.chunks = [(n, raw)] →
      ∃ ch, (n, ch) ∈ (d.stage m (d.d + 2 + n)).chunks ∧ ∀ i, i < 128 →
        let lane := fun (x : BitVec 4096) (i : Nat) => x.extractLsb' (32 * i) 32
        let en := m.latch.extractLsb' (39 * ((128 * n + i) % shpN d.shp.toNat)) 39
        let p : Int := (lane raw i).toInt * (en.extractLsb' 0 32).toInt
        let unit : Int := 2 ^ fld en 37 32
        let clamped := fun lo hi : Int => ∃ q : Int, 2 * (p - q * unit).natAbs ≤ unit ∧
          (1 < unit → 2 * (p - q * unit).natAbs = unit → if bit en 38 then p.natAbs ≤ (q * unit).natAbs else q % 2 = 0) ∧
          lane ch i = BitVec.ofInt 32 (max lo (min hi q))
        let el := [Elem.e4m3, .e5m2, .fp4, .i8].getD (d.mode.toNat - 4) .i8
        let size := 16 * 2 ^ d.qg.toNat
        let scale := chooseScale el ((List.range size).map (fun k => (lane raw (i / size * size + k)).toNat))
        (d.mode = 0 → lane ch i = lane raw i) ∧ (d.mode = 1 → clamped (-128) 127) ∧ (d.mode = 2 → clamped (-8) 7) ∧
        (d.mode = 3 → lane ch i = BitVec.ofNat 32 (cvt f32 bf16 (lane raw i).toNat).1) ∧
        (4 ≤ d.mode.toNat → d.qg ≠ 0 → lane ch i = BitVec.ofNat 32 ((encodeElem el (lane raw i).toNat scale).1 + 256 * scale)))

/-- ACC_WRITE of the oldest operation, whose next k-cycle c is due: after issue count p + (c + 1) f + 5 the products of that k-cycle are in. An integer operation without groups adds them to each entry of the accumulator it names, wrapping modulo 2^32, its second complex pass subtracting them; BF16, FP16 and FP32 add each pass's product to the entry with one rounding; an operation with groups adds them exactly to the entry's group partial, and where the group or its pass ends adds the partial, scaled by the scale bytes of its row and column, to the entry with one rounding (05 R115 to R125). Without ACCUM the first write starts from 0. The codes multiplied are, of a dense operation of one-byte elements, byte r of A and byte k of B; of a sparse one, of A the k-step that the column's metadata keeps (R127, R128); of BF16, FP16 and FP32, the 16-bit or 32-bit elements. The other accumulator and every other engine stay, and the operation leaves with its last k-cycle. An operation that does not execute adds nothing. -/
def Obligations.AccumulatorWritesAddProducts : Prop :=
  ∀ (s : State) (c : CoreId) (p : PartId) (e : EngId) (o : MmaOp) (rest : List MmaOp), s.partOf c = some p →
    (s.part p).live = true → (s.part p).cycDone = true → (s.part p).issued = true →
    let m := (s.core c).mx[e]
    m.ops = o :: rest → o.p + (o.next + 1) * o.f + 5 ≤ (s.part p).count →
    Completes (.accWrite c e) s (fun t => OnlyMx c e s t ∧
      let m' := (t.core c).mx[e]
      (o.passes * mKcy o.w = o.next + 1 → m'.ops = rest) ∧
      (o.passes * mKcy o.w ≠ o.next + 1 → ∃ o', m'.ops = o' :: rest ∧ o'.next = o.next + 1 ∧ o'.opc = o.opc ∧ o'.w = o.w ∧ o'.p = o.p ∧ o'.f = o.f) ∧
      m'.latch = m.latch ∧ m'.drains = m.drains ∧ m'.shp0 = m.shp0 ∧ m'.shp1 = m.shp1 ∧ m'.kcyc = m.kcyc ∧ m'.zblk = m.zblk ∧
      (o.form.isComplex = false → bit o.w 7 = true → m'.acc0 = m.acc0) ∧ (o.form.isComplex = false → bit o.w 7 = false → m'.acc1 = m.acc1) ∧
      (o.form.kind = .dense → mGroup o.form o.w = 0 → o.form.fa.isInt = true → o.form.fa.four = false → o.form.fb.four = false →
        o.next < mKcy o.w → ∀ r k, r < shpM (mShp o.w) → k < shpN (mShp o.w) →
        let entry := fun (a : BitVec 524288) => a.extractLsb' (32 * (r * shpN (mShp o.w) + k)) 32
        let before := entry (if bit o.w 7 then m.acc1 else m.acc0)
        let start := if o.next = 0 ∧ bit o.w 6 = false then 0 else before
        let x := ((keptAt o.a o.next).extractLsb' (8 * r) 8).toInt
        let y := ((keptAt o.b o.next).extractLsb' (8 * k) 8).toInt
        entry (if bit o.w 7 then m'.acc1 else m'.acc0) = if o.exec then start + BitVec.ofInt 32 (x * y) else start) ∧
      (let cfg := (s.core c).cfg
       let x := o.form
       let pass := o.next / mKcy o.w
       let neg := x.isComplex && pass == 1
       let second := if x.isComplex then decide (2 ≤ pass) else bit o.w 7
       let old := if second then m.acc1 else m.acc0
       let new := if second then m'.acc1 else m'.acc0
       (second = true → m'.acc0 = m.acc0) ∧ (second = false → m'.acc1 = m.acc1) ∧
       (o.passes = x.passes → o.next < o.passes * mKcy o.w → ∀ r k, r < shpM (mShp o.w) → k < shpN (mShp o.w) →
        let index := r * shpN (mShp o.w) + k
        let entry := fun (a : BitVec 524288) => a.extractLsb' (32 * index) 32
        let codes := ((o.pairs cfg e [o.next])[index]?).getD []
        let start := if o.firstWrite o.next && !bit o.w 6 then 0 else entry old
        let width := 8 * x.fa.bytes
        (x.isSparse = false → x.fa.four = false → x.fb.four = false → codes =
          [(((keptAt o.a o.next).extractLsb' (width * r) width).toNat, ((keptAt o.b o.next).extractLsb' (width * k) width).toNat)]) ∧
        (x.isSparse = true → x.fa.four = false → x.fb.four = false →
          let kept := (List.range 8).filter (fun t => bit ((keptAt o.md (o.next / x.keep * x.keep)).extractLsb' (8 * k) 8) t)
          codes = [(((keptAt o.a (o.next / x.keep * x.keep)).extractLsb' (8 * (128 * kept.getD (o.next % x.keep) 0 + r)) 8).toNat,
            ((keptAt o.b o.next).extractLsb' (8 * k) 8).toNat)]) ∧
        (o.exec = false → (mGroup x o.w = 0 ∨ o.groupEnd o.next = true) → entry new = start) ∧
        (o.exec = true → mGroup x o.w = 0 →
          (∀ fa fb, x.fa = .el fa → x.fb = .el fb →
            let d : Int := (codes.map (fun y => sext fa.bits y.1 * sext fb.bits y.2)).sum
            entry new = start + BitVec.ofInt 32 (if neg then -d else d)) ∧
          (x.fa.wide = true → ∀ y, codes = [y] →
            let product := if x.fa = .bf then
                (if (bf16.dec y.1).isZero || (bf16.dec y.2).isZero then Fp.fin false 0 0 else ((bf16.dec y.1).mul (bf16.dec y.2)).1)
              else wideProduct x.fa pass o.passes y.1 y.2
            entry new = BitVec.ofNat 32 (f32.enc ((f32.dec start.toNat).add product).1).1)) ∧
        (∀ fa fb, o.exec = true → x.fa = .el fa → x.fb = .el fb → mGroup x o.w ≠ 0 → m.group.length = 16384 →
          let before := if o.groupStart o.next = o.next then Partial.zero else m.group.getD index Partial.zero
          let after := codes.foldl (fun p y => p.add (fa.unit + fb.unit)
            (if (fa.val y.1).isZero || (fb.val y.2).isZero then Fp.fin false 0 0 else ((fa.val y.1).mul (fb.val y.2)).1)) before
          let byte := fun (l : List (Nat × BitVec 4096)) (i : Nat) =>
            if mScaled x o.w then ((keptAt l (o.groupStart o.next)).extractLsb' (8 * i) 8).toNat else 127
          let value := (after.value (fa.unit + fb.unit)).scale (fa.fexp + fb.fexp + byte o.sa r - 127 + byte o.sb k - 127)
          (o.groupEnd o.next = false → m'.group[index]? = some after ∧ entry new = entry old) ∧
          (o.groupEnd o.next = true → entry new = BitVec.ofNat 32 (f32.enc ((f32.dec start.toNat).add
            (if byte o.sa r = 255 ∨ byte o.sb k = 255 then .nan else if neg = true ∧ value.isZero = false then value.neg else value)).1).1)))))

/-! ## The vector engine -/

/-- Every vector instruction whose checks pass puts one result in flight: due at its latency after the bundle's issue count (a load or store: at its slice access in the next count), for the destination its fields name, storing through where SE asks; VFLGC instead clears the flags and NOP's opcode does nothing. Registers change only when the result is due; beside the engine only the partition's planned accesses change. The result of VFMA, VCVT, VDQ, VQG, VSF and VRED holds in every lane they write, inactive lanes 0, the fused multiply-add of the operands' elements, the converted, dequantised or quantised element, the special function of a quarter's element, or the group's reduction in the order of the tree; that of VCMP is one bit a lane, the condition of FN (07 R171 to R182). -/
def Obligations.VectorInstructionsPutAResultInFlight : Prop :=
  ∀ (s : State) (c : CoreId) (p : PartId) (w : BitVec 56), s.partOf c = some p →
    let k := s.core c
    let float := decide (vTy w = 0 ∨ vTy w = 2 ∨ vTy w = 3)
    let a := BitVec.ofNat 48 (vAddr k.ctl w)
    (∀ i opc lat, (i, opc, lat) ∈ vecRows c w float → Clean s c (s.vecCauses c (opc ++ w)) →
      ∃ rs x, exec i s = .next ((s.modPart p (fun q => { q with resv := rs })).modVec c (fun v => { v with pend := v.pend ++ [x] })) ∧
        x.due = (s.part p).count + lat ∧ x.bundle = k.ctl.pc ∧
        (if opc = 0x18 ∨ opc = 0x19 then ∃ v m, x.dest = .pred (Fin.ofNat 8 (fld w 53 51)) v m
         else if opc = 0x38 then x.dest = .load (vVd w) a (BitVec.ofNat 3 (vSf w)) (vFn w)
         else if opc = 0x39 then ∃ ls, x.dest = .store a ls ∧ ls.length = formBytes (vSf w) / 64
         else ∃ v m, x.dest = .reg (vVd w) v m) ∧
        (x.through ≠ none ↔ bit w 26 = true ∧ opc ≠ 0x02 ∧ opc ≠ 0x18 ∧ opc ≠ 0x19 ∧ opc ≠ 0x38 ∧ opc ≠ 0x39 ∧ opc ≠ 0x3C)) ∧
    (Clean s c (s.vecCauses c (0x3D#8 ++ w)) → exec (.vflgc c w) s = .next (s.modVec c (fun v => { v with flags := 0 }))) ∧
    (let a := fun l : Nat => if bit w 35 then (match k.mx[l / 128]? with
          | some m => ((m.present.getD 0).extractLsb' (32 * (l % 128)) 32).toNat
          | none => 0)
        else (k.vec.v[vVa w].extractLsb' (32 * l) 32).toNat
     let b := fun l : Nat => (k.vec.v[vVb w].extractLsb' (32 * l) 32).toNat
     let d := fun l : Nat => (k.vec.v[vVc w].extractLsb' (32 * l) 32).toNat
     let fn := (vFn w).toNat
     let active := fun l : Nat => !bit w 28 || bit k.vec.q[vMq w] l
     let el := [Elem.e4m3, .e5m2, .fp4, .i8].getD (fn % 8) .i4
     let size := 16 * 2 ^ (fn / 32)
     let scale := fun l : Nat => chooseScale el ((List.range size).map (fun j => a (l / size * size + j)))
     (∀ i opc lat, (i, opc, lat) ∈ vecRows c w float → opc ∈ [0x0B#8, 0x20, 0x21, 0x22, 0x28, 0x30] → Clean s c (s.vecCauses c (opc ++ w)) →
      ∃ rs x value mask, exec i s = .next ((s.modPart p (fun q => { q with resv := rs })).modVec c (fun v => { v with pend := v.pend ++ [x] })) ∧
        x.dest = .reg (vVd w) value mask ∧ ∀ l : Nat, l < 512 →
          let lane := (value.extractLsb' (32 * l) 32).toNat
          let sub := fun (x : Nat) (h : Nat) => x / 65536 ^ h % 65536
          (bit mask l = ((active l || bit w 27) && (opc != 0x28 || l / 128 == fld w 4 3))) ∧
          (active l = false → lane = 0) ∧
          (active l = true →
            (opc = 0x0B → vTy w = 0 → lane = (f32.fma (a l) (b l) (d l)).1) ∧
            (opc = 0x0B → vTy w ≠ 0 → ∀ h, h < 2 →
              sub lane h = ((if vTy w = 2 then bf16 else f16).fma (sub (a l) h) (sub (b l) h) (sub (d l) h)).1) ∧
            (opc = 0x20 → lane = (match fn with
              | 0 => (f32.enc (bf16.dec (sub (a l) 0))).1
              | 1 => (f32.enc (bf16.dec (sub (a l) 1))).1
              | 2 => (f32.enc (f16.dec (sub (a l) 0))).1
              | 3 => (f32.enc (f16.dec (sub (a l) 1))).1
              | 4 => (bf16.enc (f32.dec (a l))).1 + 65536 * (bf16.enc (f32.dec (b l))).1
              | 5 => (f16.enc (f32.dec (a l))).1 + 65536 * (f16.enc (f32.dec (b l))).1
              | 6 => (i32ToF32 (BitVec.ofNat 32 (a l))).1
              | _ => (f32ToI32 (a l)).1)) ∧
            (opc = 0x21 → lane = (dequant el (a l % 256) (if fn / 32 = 0 then a l / 256 % 256
              else (k.vec.v[vVb w].extractLsb' (8 * (l / size)) 8).toNat)).1) ∧
            (opc = 0x22 → lane = (encodeElem el (a l) (scale l)).1 + 256 * scale l) ∧
            (opc = 0x28 → lane = (match fn % 8 with
              | 0 => rcpF32 (a l) | 1 => rsqrtF32 (a l) | 2 => sqrtF32 (a l) | 3 => exp2F32 (a l) | 4 => log2F32 (a l) | _ => tanhF32 (a l)).1) ∧
            (opc = 0x30 → ∃ tree : Nat → Nat → Nat, let g := 32 * 2 ^ (fn / 16)
              (∀ j, j < g → tree 0 j = if active (l / g * g + j) then a (l / g * g + j) else (match vTy w, fn % 4 with
                | 0, 0 => 0x80000000 | 0, 1 => 0xFF800000 | 0, _ => 0x7F800000 | _, 0 => 0 | _, 1 => 0x80000000 | _, _ => 0x7FFFFFFF)) ∧
              (∀ n j, n < 5 + fn / 16 → j < g / 2 ^ (n + 1) → tree (n + 1) j = (redOp (vTy w) (fn % 4) (tree n (2 * j)) (tree n (2 * j + 1))).1) ∧
              lane = tree (5 + fn / 16) 0))) ∧
     (Clean s c (s.vecCauses c (0x18#8 ++ w)) →
      ∃ x value mask, exec (.vcmp c w) s = .next (s.modVec c (fun v => { v with pend := v.pend ++ [x] })) ∧
        x.dest = .pred (Fin.ofNat 8 (fld w 53 51)) value mask ∧ ∀ l : Nat, l < 512 →
          let x := f32.dec (a l)
          let y := f32.dec (b l)
          let m := (BitVec.ofNat 32 (a l)).toInt
          let n := (BitVec.ofNat 32 (b l)).toInt
          let known := !x.isNan && !y.isNan
          (bit mask l = (active l || bit w 27)) ∧
          (bit value l = (active l && if vTy w = 1 then (match fn with
              | 0 => a l == b l | 1 => a l != b l | 2 => decide (m < n) | 3 => decide (m ≤ n) | 4 => decide (n < m) | 5 => decide (n ≤ m)
              | 8 => decide (a l < b l) | 9 => decide (a l ≤ b l) | 10 => decide (b l < a l) | _ => decide (b l ≤ a l))
            else (match fn with
              | 0 => x.eq y | 1 => !x.eq y | 2 => known && x.lt y | 3 => known && (x.lt y || x.eq y)
              | 4 => known && y.lt x | 5 => known && (y.lt x || x.eq y) | _ => !known)))))

/-- The lanes of the integer and bitwise instructions, for 32-bit, 16-bit and 8-bit elements: in every element of an active lane (all of them without MK) the value in flight is the operation on the two operands' elements, wrapping modulo 2^32, 2^16 or 2^8, shifts by b modulo the element width; an inactive lane is 0 where MZ asks for it and kept otherwise; no flag is raised. Operand a is a register, or with SA the drain input, in which an engine that presents nothing reads 0. Formalises 07 R172. -/
def Obligations.IntegerLanesWrapAndShift : Prop :=
  ∀ (s : State) (c : CoreId) (p : PartId) (w : BitVec 56), s.partOf c = some p →
    ∀ (i : Instr) (opc : BitVec 8) (n : Nat) (f : BitVec n → BitVec n → BitVec n),
    (vTy w, n) ∈ [(1, 32), (4, 16), (5, 8)] →
    (i, opc) ∈ [(Instr.vadd c w, 0x08#8), (.vsub c w, 0x09#8), (.vmul c w, 0x0A#8), (.vmin c w, 0x0C#8), (.vmax c w, 0x0D#8),
      (.vabs c w, 0x0E#8), (.vneg c w, 0x0F#8), (.vand c w, 0x10#8), (.vor c w, 0x11#8), (.vxor c w, 0x12#8),
      (.vshl c w, 0x13#8), (.vshr c w, 0x14#8), (.vsra c w, 0x15#8)] →
    f = (match opc.toNat with
      | 0x08 => fun a b => a + b
      | 0x09 => fun a b => a - b
      | 0x0A => fun a b => a * b
      | 0x0C => fun a b => if a.toInt ≤ b.toInt then a else b
      | 0x0D => fun a b => if a.toInt ≤ b.toInt then b else a
      | 0x0E => fun a _ => if a.toInt < 0 then -a else a
      | 0x0F => fun a _ => -a
      | 0x10 => fun a b => a &&& b
      | 0x11 => fun a b => a ||| b
      | 0x12 => fun a b => a ^^^ b
      | 0x13 => fun a b => a <<< (b.toNat % n)
      | 0x14 => fun a b => a >>> (b.toNat % n)
      | _ => fun a b => a.sshiftRight (b.toNat % n)) →
    Clean s c (s.vecCauses c (opc ++ w)) →
    let k := s.core c
    let a : BitVec 16384 :=
      if bit w 35 then (k.mx[3].present.getD 0 ++ k.mx[2].present.getD 0 ++ k.mx[1].present.getD 0 ++ k.mx[0].present.getD 0).setWidth 16384
      else k.vec.v[vVa w]
    let b := k.vec.v[vVb w]
    ∃ rs x value mask, exec i s = .next ((s.modPart p (fun q => { q with resv := rs })).modVec c (fun v => { v with pend := v.pend ++ [x] })) ∧
      x.due = (s.part p).count + 2 ∧ x.dest = .reg (vVd w) value mask ∧ x.flags = 0 ∧
      ∀ m : Nat, m < 16384 / n →
        let lane := n * m / 32
        let active := !bit w 28 || bit k.vec.q[vMq w] lane
        (bit mask lane = (active || bit w 27)) ∧
        value.extractLsb' (n * m) n = if active then f (a.extractLsb' (n * m) n) (b.extractLsb' (n * m) n) else 0

/-- A result due at the issue count at hand reaches its destination: the lanes of its register that its mask names, the others keep their value; the bits of its predicate; one received line; a store's lines, visible from the next cycle; a load's bytes are read and due 3 counts later. Its flags join the sticky flags; nothing else changes. -/
def Obligations.VectorResultsReachTheirDestination : Prop :=
  ∀ (s : State) (c : CoreId) (p : PartId) (x : VPending), s.partOf c = some p → (s.part p).issuing = true → (s.part p).cycDone = false →
    (s.core c).vec.pend.find? (fun y => y.due ≤ (s.part p).icount.toNat) = some x →
    let v := (s.core c).vec
    let landed := fun (s : State) (f : VectorUnit → VectorUnit) =>
      s.modVec c (fun u => f { u with pend := u.pend.erase x, flags := u.flags ||| x.flags })
    (∀ vd value mask, x.dest = .reg vd value mask →
      ∃ r : BitVec 16384, (∀ l : Nat, l < 512 → r.extractLsb' (32 * l) 32 =
          if bit mask l then value.extractLsb' (32 * l) 32 else v.v[vd].extractLsb' (32 * l) 32) ∧
        exec (.vectorResultWrite c []) s = .next (match x.through with
          | none => landed s (fun u => { u with v := u.v.set vd r })
          | some (a, form, fn) => (landed s (fun u => { u with v := u.v.set vd r })).laterLines a.toNat (linesOf (storeBytes form.toNat fn r)))) ∧
    (∀ qd value mask, x.dest = .pred qd value mask →
      ∃ r : BitVec 512, (∀ l : Nat, l < 512 → bit r l = if bit mask l then bit value l else bit v.q[qd] l) ∧
        exec (.vectorResultWrite c []) s = .next (landed s (fun u => { u with q := u.q.set qd r }))) ∧
    (∀ vd ln value, x.dest = .line vd ln value →
      ∃ r : BitVec 16384, r.extractLsb' (512 * ln.val) 512 = value ∧
        (∀ k : Nat, k < 32 → k ≠ ln.val → r.extractLsb' (512 * k) 512 = v.v[vd].extractLsb' (512 * k) 512) ∧
        exec (.vectorResultWrite c []) s = .next (landed s (fun u => { u with v := u.v.set vd r }))) ∧
    (∀ a ls, x.dest = .store a ls → exec (.vectorResultWrite c []) s = .next (landed { s with
      wbuf := s.wbuf ++ ls.zipIdx.map (fun y => (a.toNat + 64 * y.2, y.1)) } (fun u => u))) ∧
    (∀ vd a form fn, x.dest = .load vd a form fn → (∀ i, i < formBytes form.toNat / 64 → s.poisoned (a.toNat + 64 * i) = false) →
      exec (.vectorResultWrite c []) s = .next (landed s (fun u => { u with pend := u.pend ++ [{ x with
        due := x.due + 3
        dest := .reg vd (loadReg form.toNat fn 0 (memReadBytes s.mem a.toNat (formBytes form.toNat))) (formLanes form.toNat) }] })))

/-! ## Bundles and holds -/

/-- BUNDLE_ISSUE of a partition that is not held and has not done its cycle, with nothing due before its bundles, outside replay: one bundle more is issued, one cycle more has passed, no held cycle is counted, memory does not change before the cycle ends, and other partitions and the cores outside keep their registers. Where every core fetches an all-NOP bundle of its code region in straight code, each goes on to the next bundle with its registers as they were. -/
def Obligations.BundlesAdvanceTheIssueCount : Prop :=
  ∀ (s : State) (p : PartId), (s.part p).live = true → (s.part p).cycDone = false → (s.part p).mustHold = false →
    s.preDue p = none → s.replaying p = false →
    Completes (.bundleIssue p []) s (fun t =>
      (t.part p).icount = (s.part p).icount + 1 ∧ (t.part p).cyc = (s.part p).cyc + 1 ∧ (t.part p).cycDone = true ∧
      (t.part p).issued = true ∧ (t.part p).total = (s.part p).total ∧ t.mem = s.mem ∧ t.clk = s.clk ∧
      (∀ q, q ≠ p → t.part q = s.part q) ∧
      (∀ c, s.partOf c ≠ some p → (t.core c).ctl = (s.core c).ctl ∧ (t.core c).vec = (s.core c).vec ∧ (t.core c).str = (s.core c).str) ∧
      ((∀ c ∈ s.coresOf p,
          let k := s.core c
          k.ctl.halted = false ∧ k.ctl.finished = false ∧ k.ctl.redirect = none ∧ k.ctl.reps = [] ∧ k.ctl.waiting = false ∧
          k.ctl.deadline = none ∧ s.inCode c k.ctl.pc.toNat = true ∧ s.line k.ctl.pc.toNat = 0 ∧ s.poisoned k.ctl.pc.toNat = false ∧
          (∀ r ∈ (s.part p).resv, r.cyc = (s.part p).icount.toNat → r.res ≠ resRead c (bankGroup k.ctl.pc.toNat)) ∧
          ∀ e : EngId, k.mx[e].ops = [] ∧ k.mx[e].drains = [] ∧ k.mx[e].mrql = [] ∧ k.mx[e].present = none ∧ k.mx[e].gated = 0) →
        ∀ c ∈ s.coresOf p, t.core c = { s.core c with ctl := { (s.core c).ctl with pc := (s.core c).ctl.pc + 64 } }))

/-- Holds: the hold decided for the bundle at hand begins; in the halt hold the halt's records are written once, when it begins (DEDUCED, log 74); each held cycle counts one cycle, one held cycle and exactly one cause, and issues nothing; a hold that may end does, and the bundle at hand can issue. None of it touches memory or a register of a core. -/
def Obligations.HoldsBeginCountAndEnd : Prop :=
  ∀ (s : State) (p : PartId), (s.part p).live = true → (s.part p).cycDone = false →
    let q := s.part p
    let counts := fun q : Part => (q.halt, q.retry, q.late, q.gover, q.fref, q.pend)
    (∀ h, q.haltHeld = false → q.hold = some h → h.begun = false → s.replaying p = false →
      Completes (.sluiceHoldStart p) s (fun t => OnlyPart p s t ∧ (t.part p).icount = q.icount ∧ (t.part p).total = q.total ∧
        ∃ h', (t.part p).hold = some h' ∧ h'.begun = true ∧ h'.items = h.items)) ∧
    (q.haltHeld = true → q.haltTold = false → s.replaying p = false →
      Completes (.sluiceHoldStart p) s (fun t => t.parts = (s.modPart p (fun q => { q with haltTold := true })).parts ∧
        t.cores = s.cores ∧ t.mem = s.mem ∧ s.ev.undurable.length < t.ev.undurable.length)) ∧
    (q.haltHeld = true → q.haltTold = true → exec (.heldCycle p) s = .next (s.modPart p (fun q => { q with
      total := q.total + 1, cyc := q.cyc + 1, halt := q.halt + 1, cycDone := true, issued := false }))) ∧
    (∀ h, q.haltHeld = false → q.hold = some h → h.begun = true → s.releasable p h = false →
      Completes (.heldCycle p) s (fun t => t.cores = s.cores ∧ t.mem = s.mem ∧ (∀ r, r ≠ p → t.part r = s.part r) ∧
        (t.part p).total = q.total + 1 ∧ (t.part p).cyc = q.cyc + 1 ∧ (t.part p).icount = q.icount ∧
        (t.part p).cycDone = true ∧ (t.part p).issued = false ∧
        counts (t.part p) ∈ [(q.halt + 1, q.retry, q.late, q.gover, q.fref, q.pend), (q.halt, q.retry + 1, q.late, q.gover, q.fref, q.pend),
          (q.halt, q.retry, q.late + 1, q.gover, q.fref, q.pend), (q.halt, q.retry, q.late, q.gover + 1, q.fref, q.pend),
          (q.halt, q.retry, q.late, q.gover, q.fref + 1, q.pend), (q.halt, q.retry, q.late, q.gover, q.fref, q.pend + 1)])) ∧
    (∀ h, q.haltHeld = false → q.hold = some h → s.releasable p h = true → s.replaying p = false →
      Completes (.holdRelease p) s (fun t => t.cores = s.cores ∧ t.mem = s.mem ∧ (∀ r, r ≠ p → t.part r = s.part r) ∧
        t.part p = { q with holds := q.holds.filter (fun x => x.before != h.before) } ∧ (t.part p).mustHold = false))

/-! ## Messages -/

/-- A request that no earlier message of its stream and no class-0 request precedes reaches its core: into the queue of an open core, its reserved entry filled and, with NR = 1, its sender's reply entry free; back as a NAK with status 1 from a closed one, which counts it. Another module's request takes a free entry and leaves its entry at the manager die, or goes back with status 2. One for the manager die passes the weir to the services. An answer, which waits for a class-0 one to its receiver too, fills, if it is for this module, the reply entry reserved for it; at a closed core, or one closed since, it is discarded; one for another module leaves. -/
def Obligations.MessagesReachTheirReceiver : Prop :=
  ∀ (s : State) (n : Nat) (m : Msg), s.net[n]? = some m → s.behind n m = false →
    let t := { s with net := s.net.eraseIdx n }
    let own := m.smod = s.fab.cfg.modid.toNat
    (m.kind = 1 → s.yields m = false → s.enters m = true →
      (∀ c, s.ownCore m.dmod m.dep = some c →
        (own → s.closed c = false → s.inReplay c = false →
          let u := t.modMu c (fun u => { u with rq := u.rq ++ [m], rqHeld := u.rqHeld.set m.cls (u.rqHeld[m.cls] - 1) })
          (m.nr = false → exec (.requestEnqueue n) s = .next u) ∧
          (∀ c', m.nr = true → epCore m.sep = some c' → (s.core c').mu.gen = m.gen →
            exec (.requestEnqueue n) s = .next (u.modMu c' (fun u => { u with rpHeld := u.rpHeld - 1 })))) ∧
        (own → (s.closed c = true ∨ s.inReplay c = true) →
          exec (.requestEnqueue n) s = .next (({ t with net := t.net ++ [m.answer 3 1 0] }).modMu c (fun u => { u with
            rqHeld := u.rqHeld.set m.cls (u.rqHeld[m.cls] - 1), closedTx := satAdd u.closedTx 1 }))) ∧
        (¬ own → s.closed c = false → s.inReplay c = false →
          let left := { t with mgrFromFab := t.mgrFromFab.set m.cls (t.mgrFromFab[m.cls] - 1) }
          ((s.core c).mu.reqFree m.cls.val = true →
            exec (.requestEnqueue n) s = .next (left.modMu c (fun u => { u with rq := u.rq ++ [m] }))) ∧
          ((s.core c).mu.reqFree m.cls.val = false →
            exec (.requestEnqueue n) s = .next { left with net := left.net ++ [m.answer 3 2 0] }))) ∧
      (s.ownCore m.dmod m.dep = none → s.sourcePart m = none →
        exec (.requestEnqueue n) s = .next { t with services := t.services ++ [{ req := m, accepted := false, left := 0, off := 0, sent := false }] }) ∧
      (∀ p, s.ownCore m.dmod m.dep = none → s.sourcePart m = some p → (s.act (248 + p.val)).budget = 0xFFFFF → s.queued (248 + p.val) = false →
        Completes (.requestEnqueue n) s (fun t' => t'.net = t.net ∧
          t'.services = s.services ++ [{ req := m, accepted := false, left := 0, off := 0, sent := false }] ∧
          t'.cores = s.cores ∧ t'.parts = s.parts ∧ t'.mem = s.mem ∧ t'.host = s.host))) ∧
    (m.kind ≠ 1 → s.yields m = false → s.carries m = true →
      (∀ c, m.dmod = s.fab.cfg.modid.toNat → epCore m.dep = some c →
        (s.closed c = false → (s.core c).mu.gen = m.gen → exec (.replyEnqueue n) s =
          .next (t.modMu c (fun u => { u with rp := u.rp ++ [m], rpHeld := u.rpHeld - 1 }))) ∧
        (s.closed c = true ∨ (s.core c).mu.gen ≠ m.gen → exec (.replyEnqueue n) s = .next t)) ∧
      (∀ port, m.dmod ≠ s.fab.cfg.modid.toNat → s.sourcePart m = none → s.toward m.dmod = some port →
        Completes (.replyEnqueue n) s (fun t' => t'.net = t.net ∧ t'.cores = s.cores ∧ t'.parts = s.parts ∧ t'.mem = s.mem ∧
          ∃ x, t'.fab.ports[port].tx = s.fab.ports[port].tx ++ [x] ∧ slotType x = 1 ∧ x.payload = m.payload ∧ slotAddr x = m.hdr.toNat)))

/-- Handlers, outside recording. The oldest request of class 0, else the oldest, starts its handler. Each operation whose checks pass has its effect and goes on to the next: SSIG raises a counter of its own core, MPUT writes the payload to line L in an idle write slot, MRPLY answers a request that wants it, MAADD adds the payload to line L word by word in a cycle with both slots idle; without them they wait. A line that MRPLY or MAADD reads with an uncorrectable word answers with NAK 6 (the reason DESIGN CHOICE, log 26) where the request still awaits its answer, and is left as it is. An empty entry halts the core with reason 0x13, MSREQ with 0x0B, in the next cycle where the bundles of the present one have issued (DESIGN CHOICE, log 82). At NOP or after operation 7 the handler ends and an unanswered request gets a reply with status 0. -/
def Obligations.HandlersServeTheOldestRequest : Prop :=
  ∀ (s : State) (c : CoreId) (p : PartId), s.handles c = some p → (∀ q, s.recording q = false) →
    let u := (s.core c).mu
    let nextOp := fun u : MessageUnit => { u with handler := u.handler.map (fun h => { h with op := h.op + 1 }) }
    (∀ m, u.handler = none → (u.rq.find? (fun x => x.cls == 0)).or u.rq.head? = some m →
      opc48 ((s.core c).cfg.operation m.hnd 0) ≠ 0 → exec (.handlerDispatch c) s = .next (s.modMu c (fun u => { u with
        rq := u.rq.erase m, handler := some { req := m, op := 0, replied := false } }))) ∧
    (∀ h w, (s.core c).handlerOp = some (h, w) → s.operationBad c h w = none →
      let a := handlerLine c w h.req.arg
      let answered := fun u : MessageUnit => { u with handler := u.handler.map (fun h => { h with replied := true, op := h.op + 1 }) }
      let wants := h.req.nr = false ∧ h.replied = false
      (opc48 w = 0x01 → (s.part p).nextSignal c = none → (s.part p).cycDone = false →
        (s.part p).used.contains (resLost c (synN (w.extractLsb' 0 40))) = false →
        (s.core c).syn.count (synN (w.extractLsb' 0 40)) + synAmt (w.extractLsb' 0 40) ≤ (s.core c).sigCap (synN (w.extractLsb' 0 40)) →
        exec (.handlerSignal c) s = .next ((s.modSyn c (fun y => y.setCount (synN (w.extractLsb' 0 40))
          (y.count (synN (w.extractLsb' 0 40)) + synAmt (w.extractLsb' 0 40)))).modMu c nextOp)) ∧
      (opc48 w = 0x24 → sliceOwner a = some c → s.writeFree a = true → exec (.mput c) s =
        .next (((s.takeSpare (resWrite c (bankGroup a))).laterLine a h.req.payload).modMu c nextOp)) ∧
      (opc48 w = 0x24 → s.writeFree a = false → exec (.mput c) s = .next s) ∧
      (opc48 w = 0x25 → fld w 39 38 ≠ 2 → wants →
        exec (.mrply c .clean) s = .next ((s.sendMsg (h.req.answer 2 (fld w 37 32) (if fld w 39 38 = 1 then h.req.payload else 0))).modMu c answered)) ∧
      (opc48 w = 0x25 → fld w 39 38 = 2 → wants → sliceOwner a = some c → s.readFree a = true →
        (s.poisoned a = false → exec (.mrply c .clean) s = .next (((s.takeSpare (resRead c (bankGroup a))).sendMsg
          (h.req.answer 2 (fld w 37 32) (s.lineNow a))).modMu c answered)) ∧
        (s.poisoned a = true → Completes (.mrply c .clean) s (fun t => t.net = s.net ++ [h.req.answer 3 6 0] ∧ t.mem = s.mem ∧
          (t.core c).mu = answered u))) ∧
      (opc48 w = 0x25 → (h.req.nr = true ∨ h.replied = true) →
        exec (.mrply c .clean) s = .next (s.modMu c (fun u => { nextOp u with extra := satAdd u.extra 1 }))) ∧
      (opc48 w = 0x26 → sliceOwner a = some c → s.readFree a = true → s.writeFree a = true → s.poisoned a = false →
        exec (.maadd c .clean) s = .next ((((s.takeSpare (resRead c (bankGroup a))).takeSpare (resWrite c (bankGroup a))).laterLine a
          (addLines (if fld w 39 38 = 1 then 1 else 2) (s.lineNow a) h.req.payload)).modMu c nextOp)) ∧
      (opc48 w = 0x26 → sliceOwner a = some c → s.readFree a = true → s.writeFree a = true → s.poisoned a = true →
        Completes (.maadd c .clean) s (fun t => t.net = s.net ++ (if h.req.nr || h.replied then [] else [h.req.answer 3 6 0]) ∧ t.mem = s.mem ∧ t.wbuf = s.wbuf ∧
          (t.core c).mu = if h.req.nr || h.replied then nextOp u else answered u))) ∧
    (∀ m, u.handler = none → (u.rq.find? (fun x => x.cls == 0)).or u.rq.head? = some m → opc48 ((s.core c).cfg.operation m.hnd 0) = 0 →
      (s.core c).ctl.halted = false → (s.part p).cycDone = false →
      Completes (.handlerDispatch c) s (fun t => (t.core c).ctl.halted = true ∧ (t.core c).halt.reason = 0x13 ∧ (t.core c).halt.inflight = true ∧
        (t.core c).halt.detail = BitVec.ofNat 64 m.hnd ∧ (t.part p).pstate = .halted ∧ t.mem = s.mem)) ∧
    (∀ h w, (s.core c).handlerOp = some (h, w) → opc48 w = 0x20 → (s.core c).ctl.halted = false →
      ((s.part p).cycDone = false → Completes (.requestSendFromHandler c) s (fun t => (t.core c).ctl.halted = true ∧ (t.core c).halt.reason = 0x0B ∧
        (t.core c).halt.detail = BitVec.ofNat 64 h.req.hnd ∧ (t.part p).pstate = .halted ∧ t.mem = s.mem)) ∧
      ((s.part p).cycDone = true → exec (.requestSendFromHandler c) s = .next (s.modPart p (fun q => { q with halting := q.halting ++
        [{ core := c, inflight := false, slot := 1, reason := 0x0B, addr := (s.core c).ctl.pc, detail := h.req.hnd, handler := true }] })))) ∧
    (∀ h, u.handler = some h → (∀ w, (s.core c).handlerOp = some (h, w) → opc48 w = 0) → h.req.smod = s.fab.cfg.modid.toNat →
      exec (.handlerEnd c) s = .next (if h.req.nr || h.replied then s.modMu c (fun u => { u with handler := none })
        else (s.sendMsg (h.req.answer 2 0 0)).modMu c (fun u => { u with handler := none, auto := satAdd u.auto 1 })))

/-- The manager die's services, for a core of this module that waits for its reply. A request for another module leaves by its port in its order, class 0 first; one whose HND names no service gets NAK 6, one for a module outside the configuration NAK 5. An output of a session is accepted, its lines are read as slots are idle, and then it is written to its place in the output ring, its completion, of TYPE 0x02 with its lines, tag and number, follows with its vector, or its pending bit where that is masked, and then the reply. A move is accepted, or rejected (BADREQ, STALE); its next part copies lines of this module, at once between HBM lines; a part that another module owns sends one line slot a unit with the table's version and goes by the owner's answer; once all has moved it is answered with status 0. The weir's units and their admission are log 22, the owner's answer as an operand log 27, lines of HBM moved at once log 69, the numbering of vectors log 6. -/
def Obligations.ServicesAnswerTheirRequests : Prop :=
  ∀ (s : State) (n : Nat) (v : Service), s.services[n]? = some v → v.req.smod = s.fab.cfg.modid.toNat → v.req.nr = false →
    let m := v.req
    let mine := m.dmod = s.fab.cfg.modid.toNat
    let ended := { s.dropSoft (fun f => f == SoftEnd.service m) with
      services := s.services.erase v, mgrFromDie := s.mgrFromDie.set m.cls (s.mgrFromDie[m.cls] - 1) }
    let becomes := fun w : Service => s.services.map (fun x => if x = v then w else x)
    (∀ port, ¬ mine → s.serviceBehind n m = false → s.reachable m.dmod = true → s.toward m.dmod = some port → s.forwardYields m port = false →
      Completes (.managerForward n port) s (fun t => t.services = s.services.erase v ∧ t.mgrFromDie = s.mgrFromDie ∧
        t.fab.asked = s.fab.asked ++ [{ req := m, freed := false }] ∧ t.fab.ports[port].unacked = s.fab.ports[port].unacked ++ [m] ∧
        (∃ x, t.fab.ports[port].tx = s.fab.ports[port].tx ++ [x] ∧ slotType x = 1 ∧ x.payload = m.payload ∧ slotAddr x = m.hdr.toNat) ∧
        t.cores = s.cores ∧ t.parts = s.parts ∧ t.mem = s.mem ∧ t.net = s.net)) ∧
    (∀ port, ¬ mine → s.serviceBehind n m = false → s.reachable m.dmod = false →
      exec (.managerForward n port) s = .next { ended with net := s.net ++ [m.answer 3 5 0] }) ∧
    (mine → m.hnd ≠ 1 → m.hnd ≠ 0x10 → m.hnd ≠ 0x11 →
      exec (.undefinedServiceRequest n) s = .next { ended with net := s.net ++ [m.answer 3 6 0] }) ∧
    (let sid := m.bytes 0 2
      let x := s.session sid
      mine → m.hnd = 1 →
        (v.accepted = false → (s.soutBad m = true ∨ (s.act x.act.toNat).budget = 0) →
          exec (.sout n []) s = .next { ended with net := s.net ++ [m.answer 3 6 0] }) ∧
        (∀ p, v.accepted = false → sid < 4096 → x.valid = true → 1 ≤ m.bytes 4 4 → m.bytes 4 4 ≤ x.outLn.toNat → m.bytes 8 6 % 64 = 0 →
          s.sourcePart m = some p → x.part.toNat = p.val → insideOne (s.ownSpans p) (m.bytes 8 6) (64 * m.bytes 4 4) = true →
          (s.act x.act.toNat).budget = 0xFFFFF → s.queued x.act.toNat = false → s.soft = [] → s.softDone = [] → s.liveAt (m.bytes 8 6) = true →
          Completes (.sout n []) s (fun t => t.services = becomes { v with accepted := true } ∧
            t.net = s.net ∧ t.mem = s.mem ∧ t.cores = s.cores ∧ t.parts = s.parts ∧ t.out = s.out ∧
            t.soft = [{ id := s.softNext, todo := (List.range (m.bytes 4 4)).map (fun i => SoftLine.read (m.bytes 8 6 + 64 * i)), owed := 0, got := [], bad := false, errs := [], source := 2, core := m.sep, fin := .service m }])) ∧
        (∀ j, v.accepted = true → s.softEnded (.service m) = some j → j.bad = false → x.valid = true →
          Completes (.sout n []) s (fun t => t.services = ended.services ∧ t.mgrFromDie = ended.mgrFromDie ∧ t.net = s.net ++ [m.answer 2 0 0] ∧
            t.cores = s.cores ∧ t.parts = s.parts ∧ t.mem = s.mem ∧
            (∀ k, k ≠ sid → t.session k = s.session k) ∧ t.session sid = { x with outs := x.outs + 1, cpls := x.cpls + 1 } ∧
            (let v := vectorOf x.func.toNat x.vec.toNat
             t.out = s.out ++ [.hostWrite (x.outRing.toNat + 64 * x.outLn.toNat * (x.outs % x.nring.toNat)) ((j.got.map Prod.snd).flatMap lineBytes),
                .hostWrite (x.cpl.toNat + 16 * (x.cpls % (2 * x.nring.toNat)))
                  (leBytes 1 2 ++ leBytes 1 0 ++ leBytes 2 0 ++ leBytes 4 (m.bytes 4 4) ++ leBytes 4 (m.bytes 16 4) ++ leBytes 4 x.outs)] ++
                (if raisable v = true ∧ bit s.host.masked v = false then [.msix v] else []) ∧
              (raisable v = true → bit s.host.masked v = true → bit t.host.msixPend v = true)))) ∧
        (∀ j, v.accepted = true → s.softEnded (.service m) = some j → j.bad = true →
          Completes (.sout n []) s (fun t => t.services = ended.services ∧ t.net = s.net ++ [m.answer 3 6 0] ∧ t.out = s.out ∧ t.mem = s.mem))) ∧
    (∀ hnd, (hnd = 0x10 ∨ hnd = 0x11) → mine → m.hnd = hnd →
      let move := fun a : OwnerAnswer => if hnd = 0x10 then Instr.otget n a [] else .otput n a []
      (∀ a, v.accepted = false → s.moveBad m = true → exec (move a) s = .next { ended with net := s.net ++ [m.answer 3 6 0] }) ∧
      (∀ a, v.accepted = false → s.moveBad m = false → s.movePart v.moving = none →
        exec (move a) s = .next { ended with net := s.net ++ [m.answer 3 4 0] }) ∧
      (∀ a, v.accepted = false → s.moveBad m = false → (s.movePart v.moving).isSome = true → exec (move a) s =
        .next { s with services := becomes { v with accepted := true, left := m.bytes 16 3, off := m.bytes 8 5 } }) ∧
      (∀ x, v.accepted = true → v.left ≠ 0 → s.movePart v = some x →
        let src := if hnd = 0x10 then x.far else x.near
        let dst := if hnd = 0x10 then x.near else x.far
        (∀ j a, s.softEnded (.service m) = some j → j.bad = false → (x.mod = s.fab.cfg.modid.toNat ∨ hnd = 0x10) →
          exec (move a) s = .next { s with softDone := s.softDone.erase j, services := becomes { v with
            left := v.left - x.k, off := v.off + x.k, sent := false } }) ∧
        (∀ p a, x.mod = s.fab.cfg.modid.toNat → s.sourcePart m = some p → s.partAt x.far = some p →
          (s.act (248 + p.val)).budget = 0xFFFFF → s.queued (248 + p.val) = false → s.soft = [] → s.softDone = [] → s.fab.d2dTraining = false →
          (∀ q, s.recording q = false) → hbmBase ≤ src → hbmBase ≤ dst → (src + 64 * x.k ≤ dst ∨ dst + 64 * x.k ≤ src) →
          (∀ i, i < x.k → s.poisoned (src + 64 * i) = false) →
          Completes (move a) s (fun t => t.net = s.net ∧ t.parts = s.parts ∧ t.mgrFromDie = s.mgrFromDie ∧ t.soft = [] ∧
            t.services = becomes { v with left := v.left - x.k, off := v.off + x.k, sent := false } ∧
            ∀ i, i < x.k → t.lineNow (dst + 64 * i) = s.lineNow (src + 64 * i))) ∧
        (∀ port, hnd = 0x10 → x.mod ≠ s.fab.cfg.modid.toNat → v.sent = false → s.soft = [] → s.softDone = [] → s.toward x.mod = some port →
          Completes (.otget n .pending []) s (fun t => t.services = becomes { v with sent := true } ∧ t.mem = s.mem ∧ t.net = s.net ∧
            ∃ xs, t.fab.ports[port].tx = s.fab.ports[port].tx ++ xs ∧ xs.length = x.k ∧
              ∀ y ∈ xs, slotType y = 3 ∧ slotVer y = m.bytes 4 4)) ∧
        (∀ e, e ∈ [(OwnerAnswer.stale, 4), (.epoch, 3)] → x.mod ≠ s.fab.cfg.modid.toNat → v.sent = true → s.soft = [] → s.softDone = [] →
          exec (move e.1) s = .next { ended with net := s.net ++ [m.answer 3 e.2 0] }))) ∧
    (mine → (m.hnd = 0x10 ∨ m.hnd = 0x11) → v.accepted = true → v.left = 0 →
      exec (.otMoveDone n) s = .next { ended with net := s.net ++ [m.answer 2 0 0] })

/-! ## The fabric -/

/-- A flit of three slots reads back from its 256 bytes. A port in use and up: a data flit with a good CRC in its epoch, next in sequence and with no acknowledgement, replay request or credits, puts its slots into the queue, the credit of one of a reserved type owed back at once; one with a bad CRC is dropped and a replay request owed; while that has not left, every flit but a notice is dropped, and so is one of another epoch, of the reserved type 3, or out of sequence, an idle one that shows a flit missing too (DEDUCED, log 92). Sending: an owed epoch notice first; else a replay's next flit as it was sent, credits too, with the present acknowledgement; else up to three waiting slots, as slot credits allow, or the credits owed, slot credits first, then classes in ascending order: with the next number, kept until acknowledged, a request of this die freeing its entry; else an idle flit, with no credits (DEDUCED, log 92). 2 us without an acknowledgement start a replay of all that is kept. -/
def Obligations.FlitsMoveSlotsBetweenPorts : Prop :=
  (∀ f : Flit, f.slots.length = 3 → (flitBytes f).length = 256 ∧ readFlit (flitBytes f) = f) ∧
  ∀ (s : State) (n : PortId) (bytes : List Byte), s.fab.ports[n].inUse = true → s.fab.ports[n].up = true →
    let q := s.fab.ports[n]
    let f := readFlit bytes
    (q.epoch = f.epoch → f.ft = 0 → f.av = false → f.ck = 0 → f.rnak = false → q.rnakOwed = false → (q.rxValid = true → f.seq = q.rxSeq + 1) →
      let kept := f.slots.filter (fun x => decide (1 ≤ slotType x ∧ slotType x ≤ 7))
      exec (.flitReceive n bytes true) s = .next (s.modPort n (fun q => { q with
        rxSeq := f.seq, rxValid := true, lastValid := s.ns, rx := q.rx ++ kept, rxNew := q.rxNew ++ kept
        creditOwed := q.creditOwed + (f.slots.filter (fun x => decide (8 ≤ slotType x))).length }))) ∧
    (exec (.flitReceive n bytes false) s = .next (s.modPort n (fun q => { q with rnakOwed := true }))) ∧
    (f.ft ≠ 2 → (q.epoch ≠ f.epoch ∨ f.ft = 3 ∨ q.rnakOwed = true ∨ (f.ft = 0 ∧ q.rxValid = true ∧ f.seq ≠ q.rxSeq + 1) ∨
        (f.ft = 1 ∧ q.rxValid = true ∧ f.seq ≠ q.rxSeq)) →
      exec (.flitReceive n bytes true) s = .next s) ∧
    (let present := fun (h : Flit) => h.epoch = q.epoch ∧ h.ackSeq = q.rxSeq ∧ h.av = q.rxValid ∧ h.rnak = q.rnakOwed
      let went := fun (h : Flit) (after : Port → Port) =>
        exec (.flitTransmit n) s = .next ((s.modPort n (fun q => { after q with rnakOwed := false, rxNew := [] })).emit (.flit n (flitBytes h)))
      let bare := fun (h : Flit) => h.ck = 0 ∧ h.ccnt = 0 ∧ h.slots = [emptySlot, emptySlot, emptySlot]
      let now := q.tx.take (min 3 q.credits)
      (q.noticeOwed = true → ∃ h, present h ∧ bare h ∧ h.ft = 2 ∧ h.seq = q.txSeq ∧ went h (fun q => { q with noticeOwed := false })) ∧
      (∀ g rest, q.noticeOwed = false → q.replaying = g :: rest →
        went { g with epoch := q.epoch, ackSeq := q.rxSeq, av := q.rxValid, rnak := q.rnakOwed } (fun q => { q with replaying := rest })) ∧
      (q.noticeOwed = false → q.replaying = [] → q.buffer.length < 256 → ∀ (kind k slotCredits : Nat) (reqCredits : Vector Nat 4),
        (((0 < q.creditOwed ∧ kind = 5 ∧ k = min 255 q.creditOwed ∧ slotCredits = q.creditOwed - k ∧ reqCredits = q.reqOwed) ∨
          (∃ c : Fin 4, q.creditOwed = 0 ∧ (∀ d, d < c → q.reqOwed[d] = 0) ∧ 0 < q.reqOwed[c] ∧ kind = c.val + 1 ∧ k = min 255 q.reqOwed[c] ∧
            slotCredits = 0 ∧ reqCredits = q.reqOwed.set c (q.reqOwed[c] - k)) ∨
          (q.creditOwed = 0 ∧ (∀ d : Fin 4, q.reqOwed[d] = 0) ∧ now ≠ [] ∧ kind = 0 ∧ k = 0 ∧ slotCredits = 0 ∧ reqCredits = q.reqOwed)) →
        ∃ h, present h ∧ h.ft = 0 ∧ h.seq = q.txSeq + 1 ∧ h.ck = BitVec.ofNat 4 kind ∧ h.ccnt = BitVec.ofNat 8 k ∧ h.slots = threeSlots now ∧
          exec (.flitTransmit n) s = .next (((s.sentOut n now).modPort n (fun o => { q with
            rnakOwed := false, rxNew := [], unacked := o.unacked, creditOwed := slotCredits, reqOwed := reqCredits
            tx := q.tx.drop now.length, txSeq := q.txSeq + 1, credits := q.credits - now.length, buffer := q.buffer ++ [h]
            lastAck := if q.buffer = [] then s.ns else q.lastAck })).emit (.flit n (flitBytes h))))) ∧
      (q.noticeOwed = false → q.replaying = [] → ((now = [] ∧ q.creditOwed = 0 ∧ ∀ d : Fin 4, q.reqOwed[d] = 0) ∨ 256 ≤ q.buffer.length) →
        ∃ h, present h ∧ bare h ∧ h.ft = 1 ∧ h.seq = q.txSeq ∧ went h (fun q => q))) ∧
    (∀ m x, q.unacked = [m] → s.fromDie m = true → slotType x = 1 → slotMsg x = { m with gen := 0 } → m.kind = 1 →
      (s.sentOut n [x]).mgrFromDie = s.mgrFromDie.set m.cls (s.mgrFromDie[m.cls] - 1)) ∧
    (q.buffer ≠ [] → q.replaying = [] → q.lastAck + 2000 ≤ s.ns → q.replays < 3 →
      exec (.ackTimeout n) s = .next (s.modPort n (fun q => { q with
        replaying := q.buffer, replays := q.replays + 1, replay := satAdd q.replay 1, lastAck := s.ns })))

/-- Links: 10 us without a valid flit, the fourth replay of one flit, or the next epoch's notice reset a port: it is down, one epoch on, its reset counted, nothing left in its buffer, an epoch notice owed, with one record of severity 3 that names port, epoch and cause (a request it received and had not yet passed on leaves its queue: DEDUCED, log 24). A port whose eight lanes train comes up. The first notice after a reset of this module gives the port its epoch. The die-to-die link: a good flit ends its own row of replays; a failing one is counted and replayed; the fourth replay of one flit retrains the link in the next epoch, answers each request that crosses it with NAK 3, which takes its place behind the others, and leaves one record of severity 5 with the epoch (DEDUCED, log 64: when the requests are lost). What the manager die asks of the compute die waits while the link trains; at the end of the retrain it carries flits again and the command, or a stop that waited, takes effect once (DEDUCED, log 43). -/
def Obligations.LinksResetAndRetrain : Prop :=
  (∀ (s : State) (n : PortId), s.fab.ports[n].inUse = true →
      let q := s.fab.ports[n]
      (∀ (i : Instr) (cause : BitVec 8), q.up = true →
        ((i = .linkIdleTimeout n ∧ q.lastValid + 10000 ≤ s.ns ∧ cause = 1) ∨
         (i = .ackTimeout n ∧ q.buffer ≠ [] ∧ q.replaying = [] ∧ q.lastAck + 2000 ≤ s.ns ∧ 3 ≤ q.replays ∧ cause = 0) ∨
         (i = .epochNotice n ∧ q.fresh = false ∧ q.rxValid = true ∧ cause = 2)) →
        Completes i s (fun t =>
          let q' := t.fab.ports[n]
          q'.up = false ∧ q'.inUse = true ∧ q'.epoch = q.epoch + 1 ∧ q'.lreset = satAdd q.lreset 1 ∧ q'.buffer = [] ∧ q'.replaying = [] ∧
          q'.noticeOwed = true ∧ q'.rxValid = false ∧ q'.credits = 512 ∧ q'.rx = q.rx.filter (fun x => !isRequest x) ∧
          t.ev = (s.event 0x501 3 none none [BitVec.ofNat 8 n.val, q.epoch + 1, cause]).ev ∧
          t.mem = s.mem ∧ t.parts = s.parts ∧ t.clk = s.clk)) ∧
      (q.up = false → s.clk.refLost = false → (s.sec.tap.toNat < 3 ∨ s.sec.lcs = 3) →
        exec (.linkRetrainDone n true) s = .next ((s.modPort n (fun q => { q with up := true, lastValid := s.ns, lastAck := s.ns })).raise 10)) ∧
      (q.up = true → q.fresh = true → exec (.epochNotice n) s = .next (s.modPort n (fun q => { q with
        epoch := if q.rxValid then q.epoch + 1 else q.epoch, fresh := false, rxValid := false, rxSeq := 0 })))) ∧
  (∀ s : State,
      (∀ down num, s.fab.d2dTraining = false →
        let mine := fun e : Bool × Nat × Nat => e.1 == down && e.2.1 == num
        let others := s.fab.d2dReplays.filter (fun e => !mine e)
        let lost := fun m : Msg => m.kind == 1 && s.crosses m
        exec (.d2dFlitReceive { down := down, num := num, crcOk := true }) s = .next { s with fab := { s.fab with d2dReplays := others } } ∧
        (∀ k, (s.fab.d2dReplays.find? mine = none ∧ k = 0 ∨ s.fab.d2dReplays.find? mine = some (down, num, k)) →
          (k < 3 → exec (.d2dFlitReceive { down := down, num := num, crcOk := false }) s = .next { s with fab := { s.fab with
            d2dRetries := satAdd s.fab.d2dRetries 1, d2dReplays := (down, num, k + 1) :: others } }) ∧
          (3 ≤ k → Completes (.d2dFlitReceive { down := down, num := num, crcOk := false }) s (fun t =>
            t.fab.d2dTraining = true ∧ t.fab.d2dEpoch = s.fab.d2dEpoch + 1 ∧ t.fab.d2dResets = satAdd s.fab.d2dResets 1 ∧ t.fab.d2dReplays = [] ∧
            t.net = s.net.filter (fun m => !lost m) ++ (s.net.filter lost).map (fun m => m.nak 3) ∧
            t.ev = (s.event 0x503 5 none none [s.fab.d2dEpoch + 1]).ev ∧ t.mem = s.mem ∧ t.parts = s.parts)))) ∧
      (s.asz.crossing = none → s.soft = [] → (∀ p, (s.part p).stopAsked = false ∧ (s.part p).rstAsked = false) →
        exec .d2dRetrainDone s = .next { s with fab := { s.fab with d2dTraining := false } }) ∧
      (∀ p, s.asz.crossing = none → s.soft = [] → (∀ q, (s.part q).rstAsked = false ∧ ((s.part q).stopAsked = true ↔ q = p)) → (s.part p).live = true →
        Completes .d2dRetrainDone s (fun t => t.fab.d2dTraining = false ∧ (t.part p).pstate = .stopped ∧ (t.part p).stopAsked = false ∧
          ∀ q, q ≠ p → t.part q = s.part q)) ∧
      (∀ pmask req, s.asz.crossing = some (5, pmask, req) → s.soft = [] →
        (∀ p, (s.part p).armed = none ∧ (s.part p).stopAsked = false ∧ (s.part p).rstAsked = false) →
        Completes .d2dRetrainDone s (fun t => t.fab = { s.fab with d2dTraining := false } ∧ t.asz.crossing = none ∧ t.asz.busy = false ∧
          t.parts = s.parts ∧ t.mem = s.mem)) ∧
      (∀ pmask, s.fab.d2dTraining = true → s.reaches .host = true → s.asz.busy = false →
        exec (.stop .host pmask) s = .next { s with asz := { s.asz with pmask := pmask, busy := true, crossing := some (3, pmask, .host) } }))

/-- A received slot that is next in its channel, in direct mode: a message for another module goes to the port towards it, a request's credit to come back the same way; a request for this module takes an entry and goes on to its core, or to the services where its endpoint is no core; one whose partition has been reset since it came is answered NAK CLOSED; an owner-table line is written or read where a registered table of its VER gives this module that line (DESIGN CHOICE, log 27: a line slot names no TID, and a read's answer leaves as an output), and is answered NAK STALE else; a barrier slot counts or delivers; a worker's management command acts. Each slot leaves the queue and its credit is owed back. Lines are moved in idle slots that no handler wants; a written one is seen from the next cycle on, where cycles pass. In switched mode a slot is taken when its number is the next of its stream, waits while it is at most 256 ahead, and is dropped with NAK QFULL beyond; a request that finds no entry free is answered NAK QFULL. -/
def Obligations.ReceivedSlotsReachTheirReceiver : Prop :=
  (∀ (s : State) (n : PortId) (j : Nat) (x : FabSlot) (w : BitVec 16), s.fab.cfg.flow ≠ 0 → slotType x = 1 → (slotMsg x).dmod = s.fab.cfg.modid.toNat →
    (slotMsg x).kind = 1 → (slotMsg x).smod ≠ s.fab.cfg.modid.toNat → s.fab.ports[n].barred.contains x = false →
    let m := slotMsg x
    let key := e2eKey m.smod m.dmod (slotCh x) (slotCls x)
    let ahead := (BitVec.ofNat 16 (slotE2e x) - w).toNat
    let t := s.modPort n (fun q => { q with rx := q.rx.eraseIdx j, rxNew := q.rxNew.erase x, barred := q.barred.erase x, creditOwed := q.creditOwed + 1 })
    s.fab.resync.contains key = false → s.fab.e2e.lookup key = some w →
    (s.fab.ports[n].rx = [x] → 0 < ahead → ahead ≤ 256 → exec (.slotMessage n) s = .next s) ∧
    (s.fab.ports[n].rx = [x] → j = 0 → 256 < ahead → exec (.slotMessage n) s = .next (t.sendSlot m.smod (msgSlot (m.nak 2)))) ∧
    (s.nextSlot n 1 = some (j, x) → ahead = 0 → ∀ c, epCore m.dep = some c → s.partOf c = none → Completes (.slotMessage n) s (fun u =>
      u.fab.e2e.lookup key = some (w + 1) ∧ u.fab.ports[n].rx = s.fab.ports[n].rx.eraseIdx j ∧
      (s.mgrFromFab[m.cls] < 256 → u.net = s.net ++ [m] ∧ u.mgrFromFab = s.mgrFromFab.set m.cls (s.mgrFromFab[m.cls] + 1)) ∧
      (256 ≤ s.mgrFromFab[m.cls] → u.net = s.net ∧ u.mgrFromFab = s.mgrFromFab ∧
        ∀ d, s.toward m.smod = some d → ∃ y, u.fab.ports[d].tx = s.fab.ports[d].tx ++ [y] ∧ slotType y = 1 ∧ slotMsg y = { m.nak 2 with gen := 0 })))) ∧
  ∀ (s : State) (n : PortId) (j : Nat) (x : FabSlot), s.fab.cfg.flow = 0 → s.nextSlot n (slotType x) = some (j, x) →
    let m := slotMsg x
    let a := slotAddr x % 2 ^ 48
    let t := s.modPort n (fun q => { q with rx := q.rx.eraseIdx j, rxNew := q.rxNew.erase x, barred := q.barred.erase x, creditOwed := q.creditOwed + 1 })
    (∀ d, slotType x = 1 → m.dmod ≠ s.fab.cfg.modid.toNat → s.toward m.dmod = some d →
      exec (.slotMessage n) s = .next (t.modPort d (fun q => { q with
        tx := q.tx ++ [x], through := if m.kind = 1 then q.through ++ [(m.dmod * 4 + m.cls.val, some n)] else q.through }))) ∧
    (slotType x = 1 → m.dmod = s.fab.cfg.modid.toNat → s.fab.ports[n].barred.contains x = true → m.smod ≠ s.fab.cfg.modid.toNat →
      ∀ d, s.toward m.smod = some d → exec (.slotMessage n) s = .next
        ((t.modPort d (fun q => { q with reqOwed := q.reqOwed.set m.cls (q.reqOwed[m.cls] + 1) })).sendSlot m.smod (msgSlot (m.nak 1)))) ∧
    (slotType x = 1 → m.dmod = s.fab.cfg.modid.toNat → s.fab.ports[n].barred.contains x = false → m.kind = 1 →
      (∀ c, epCore m.dep = some c → s.partOf c = none → exec (.slotMessage n) s =
        .next { t with mgrFromFab := t.mgrFromFab.set m.cls (t.mgrFromFab[m.cls] + 1), net := t.net ++ [m] }) ∧
      (∀ c p, epCore m.dep = some c → s.partOf c = some p → (s.act (240 + p.val)).budget = 0xFFFFF → s.asz.waiting = [] → s.asz.passed = [] →
        Completes (.slotMessage n) s (fun u => u.net = s.net ++ [m] ∧ u.mgrFromFab = s.mgrFromFab.set m.cls (s.mgrFromFab[m.cls] + 1) ∧
          u.fab = t.fab ∧ u.cores = s.cores ∧ u.parts = s.parts ∧ u.mem = s.mem ∧ u.services = s.services)) ∧
      (epCore m.dep = none → exec (.slotMessage n) s = .next { t with
        mgrFromFab := t.mgrFromFab.set m.cls (t.mgrFromFab[m.cls] + 1), services := t.services ++ [{ req := m, accepted := false, left := 0, off := 0, sent := false }] })) ∧
    (∀ c p u, slotType x = 1 → m.dmod = s.fab.cfg.modid.toNat → s.fab.ports[n].barred.contains x = false → m.kind = 2 → epCore m.dep = some c → s.partOf c = some p →
      (s.act (240 + p.val)).budget = 0xFFFFF → s.asz.waiting = [] → s.asz.passed = [] → s.askedFor m = some u → u.freed = false →
      Completes (.slotMessage n) s (fun t' => t'.net = s.net ++ [{ m with gen := u.req.gen }] ∧ t'.fab = { t.fab with asked := s.fab.asked.erase u } ∧
        t'.cores = s.cores ∧ t'.parts = s.parts ∧ t'.mem = s.mem)) ∧
    (s.fab.d2dTraining = false → s.ownsLine (slotVer x) a = true → s.handlerWantsLine a = false → s.asz.waiting = [] → s.asz.passed = [] →
      (slotType x = 2 → s.writeFree a = true → (∀ p, s.partAt a = some p → (s.act (240 + p.val)).budget = 0xFFFFF) →
        Completes (.slotLineWrite n) s (fun u => u.fab = t.fab ∧ u.net = s.net ∧ u.parts = s.parts ∧
          (∀ o, sliceOwner a = some o → ((s.liveOf o).isSome = true ∨ s.clk.running = true) → u.mem = s.mem ∧ u.wbuf = s.wbuf ++ [(a, x.payload)]) ∧
          (∀ o, sliceOwner a = some o → s.liveOf o = none → s.clk.running = false → MemoryCanonical s → u.line a = x.payload ∧
            ∀ b, b < a ∨ a + 64 ≤ b → memRead u.mem b = memRead s.mem b) ∧
          (hbmBase ≤ a → u.lineNow a = x.payload ∧ u.mem = s.mem))) ∧
      (slotType x = 3 → s.readFree a = true → s.poisoned a = false → (∀ p, s.partAt a = some p → (s.act (248 + p.val)).budget = 0xFFFFF) →
        Completes (.slotLineRead n .clean) s (fun u => u.out = s.out ++ [.fabricLine n (some (s.lineNow a))] ∧
          u.mem = s.mem ∧ u.fab = t.fab ∧ u.cores = s.cores ∧ u.parts = s.parts))) ∧
    ((slotType x = 2 ∨ slotType x = 3) → s.ownsLine (slotVer x) a = false →
      exec (if slotType x = 2 then .slotLineWrite n else .slotLineRead n .clean) s = .next
        (t.sendSlot (slotAddr x / 2 ^ 48 % 4096) (msgSlot { hdr := mkHdr 3 false (slotCls x) (slotAddr x / 2 ^ 48 % 4096) 64 s.fab.cfg.modid.toNat 64 4 (slotType x), payload := 0, gen := 0 }))) ∧
    (slotType x = 4 → s.fab.cfg.role = 1 → ∀ first count, s.spanGroup (barPart x) (barId x) = some (first, count) → 2 ≤ count →
      s.fab.spanCount.find? (fun y => y.part == barPart x && y.id == barId x) = none →
      exec (.slotBarrierArrival n) s = .next { t with fab := { t.fab with
        spanCount := t.fab.spanCount.filter (fun y => !(y.part == barPart x && y.id == barId x)) ++
          [{ part := barPart x, id := barId x, count := 1, commit := barCommit x, token := barToken x }] } }) ∧
    (slotType x = 5 → s.fab.d2dTraining = false → (s.part (barPart x)).live = true → (s.part (barPart x)).roots[barId x].spanWaiting = true →
      exec (.slotBarrierCompletion n) s = .next (t.modPart (barPart x) (fun q => { q with
        roots := q.roots.set (barId x) { q.roots[barId x] with spanReady := true, spanCommit := barCommit x } }))) ∧
    (∀ cmd, slotType x = 7 → s.fab.cfg.role = 2 → exec (.slotManagementCommand n cmd) s = .next (match cmd.cmd.toNat with
      | 1 => (t.askImage cmd).loadCmd .fabric cmd.img cmd.pmask
      | 2 => t.releaseCmd .fabric cmd.pmask
      | 3 => t.stopCmd .fabric cmd.pmask
      | 4 => (t.askImage cmd).armCmd .fabric cmd.img cmd.pmask
      | 5 => t.cancelCmd .fabric cmd.pmask
      | _ => t))

/-- Time: an exchange's offset is ((t2 - t1) - (t4 - t3) - CORR) / 2; the first after a load is the module's offset, a later one is owed as a correction and recorded when above 100 ns; a time slot carries the manager module's stamps or ends a worker's exchange (the layout of its payload is DESIGN CHOICE, log 28). Every 1,024 ns the master's count reaches the die root. A tick adds 1 ns, where no release refresh begins; every 1,000,000th count a worker sends its stamp to the manager module (which count DESIGN CHOICE, log 97); while a correction is owed, one of each thousand adds none, or one more comes after each thousand (which tick takes the step is DEDUCED, log 68). -/
def Obligations.TimeIsAlignedAndCounted : Prop :=
  ∀ s : State,
    (∀ x : TimeStamps, s.fab.cfg.role = 2 →
      let o : Int := ((x.t2.toInt - x.t1.toInt) - (x.t4.toInt - x.t3.toInt) - x.corr.toInt) / 2
      let t := { s with fab := { s.fab with stamps := some x } }
      (s.fab.tbAligned = false → exec (.timeExchange x) s = .next { s with fab := { s.fab with
        stamps := some x, tbOfs := BitVec.ofInt 64 o, tbAligned := true } }) ∧
      (s.fab.tbAligned = true → o.natAbs ≤ 100 →
        exec (.timeExchange x) s = .next { t with clk := { s.clk with adj := BitVec.ofInt 32 o } }) ∧
      (s.fab.tbAligned = true → 100 < o.natAbs → Completes (.timeExchange x) s (fun t => t.clk = { s.clk with adj := BitVec.ofInt 32 o } ∧
        t.ev = (s.event 0x502 3 none none (leBytes 8 (BitVec.ofInt 64 o).toNat)).ev ∧ t.mem = s.mem ∧ t.parts = s.parts ∧ t.cores = s.cores))) ∧
    (∀ n j x, s.fab.cfg.flow = 0 → s.nextSlot n 6 = some (j, x) →
      (∀ d, s.fab.cfg.role = 1 → slotBack x = false → s.toward (slotAsker x) = some d → Completes (.slotTime n) s (fun t => t.clk = s.clk ∧
        t.fab.ports[n].rx = s.fab.ports[n].rx.eraseIdx j ∧ ∃ y, t.fab.ports[d].tx = s.fab.ports[d].tx ++ [y] ∧ slotType y = 6 ∧
          slotBack y = true ∧ slotAsker y = slotAsker x ∧
          slotStamps y = { t1 := BitVec.ofNat 64 (slotAddr x), t2 := s.clk.tb, t3 := s.clk.tb, t4 := 0, corr := (slotStamps x).corr })) ∧
      (s.fab.cfg.role = 2 → slotBack x = true → slotAsker x = s.fab.cfg.modid.toNat → s.fab.tbAligned = false →
        Completes (.slotTime n) s (fun t => t.fab.tbAligned = true ∧ t.clk = s.clk ∧
          t.fab.stamps = some { slotStamps x with t4 := s.clk.tb + s.fab.tbOfs } ∧
          t.fab.ports[n].rx = s.fab.ports[n].rx.eraseIdx j ∧ t.mem = s.mem ∧ t.parts = s.parts))) ∧
    (s.clk.tb.toNat % 1024 = 0 → exec .timeBaseSync s = .next { s with clk := { s.clk with rootCopy := s.clk.tb } }) ∧
    ((∀ p, ({ s with clk := s.clk.tick, justSet := [] } : State).startRelease p = { s with clk := s.clk.tick, justSet := [] }) →
      let less := s.clk.adj.toInt < 0 ∧ 999 ≤ s.clk.sinceSlew
      let more := 0 < s.clk.adj.toInt ∧ 1000 ≤ s.clk.sinceSlew
      let tb := if less then s.clk.tb else s.clk.tb + 1
      ((less ∨ s.fab.cfg.role ≠ 2 ∨ tb.toNat % 1000000 ≠ 0) → exec .timeBaseTick s = .next { s with justSet := [], clk := { s.clk with
        tb := tb
        adj := if less then s.clk.adj + 1 else if more then s.clk.adj - 1 else s.clk.adj
        sinceSlew := if less ∨ more then 0 else s.clk.sinceSlew + 1 } }) ∧
      (∀ d, s.clk.adj = 0 → s.fab.cfg.role = 2 → tb.toNat % 1000000 = 0 → s.toward s.fab.cfg.mgrid.toNat = some d →
        Completes .timeBaseTick s (fun t => t.clk = s.clk.tick ∧ t.clk.tb = s.clk.tb + 1 ∧ ∃ y, t.fab.ports[d].tx = s.fab.ports[d].tx ++ [y] ∧
          slotType y = 6 ∧ slotBack y = false ∧ slotAsker y = s.fab.cfg.modid.toNat ∧ slotAddr y = (tb + s.fab.tbOfs).toNat)))

/-! ## Registers, sessions and windows -/

/-- Reads and writes of the host's registers. CLR of PWR_OSC_STAT sets EXCUR to 0 and LOWEST to 0x3FF and nothing else, and a write without CLR changes nothing; a read of TB_COUNT answers the count, its high half latched into the shadow; unmasking a vector sends one message if its pending bit was set; a write of EVR_RDSEQ that covers its high half latches the stored record with the smallest SEQ at or above it, or none; a register write sets the RW fields HST_WINCTL, MGR_ASZ_ADDR and MGR_ASZ_RELTB, clears TRIG bits written 1, but for those that the part set in the same cycle (a cycle being a tick: DEDUCED, log 67), gives a vector of a virtual function its address (the layout and numbering of the MSI-X table are PRESUMED, log 6), leaves the part as it was at a reserved offset or at a size or alignment that is none outside the doorbells. Rests on 00 R12; 12 R288, R298; 13 R312; 15 R344, R346; 16 R382; 17 R394, R397. -/
def Obligations.HostRegistersAreReadAndWritten : Prop :=
  ∀ s : State, s.hostUp = true →
    (∀ (off : BitVec 26) (value : BitVec 64), off.toNat = 0x30100 → exec (.oscStatClear off 8 value) s =
      .next (if bit value 37 then { s with clk := { s.clk with excur := 0, lowest := 0x3FF } } else s)) ∧
    (∀ (off : BitVec 26) (value : BitVec 64), off.toNat = 0x30104 → exec (.oscStatClear off 4 value) s =
      .next (if bit value 5 then { s with clk := { s.clk with excur := 0, lowest := 0x3FF } } else s)) ∧
    (let t := { s with clk := { s.clk with shadow := s.clk.tb.extractLsb' 32 32 } }
     exec (.tbCountLoRead 4) s = .next { t with out := t.out ++ [.readData (some (leBytes 4 s.clk.tb.toNat))] } ∧
     exec (.tbCountLoRead 8) s = .next { t with out := t.out ++ [.readData (some (leBytes 8 s.clk.tb.toNat))] }) ∧
    (∀ vec : Fin 4096, Completes (.msixUnmask vec) s (fun t =>
      t = { s with host := { s.host with masked := t.host.masked, msixPend := t.host.msixPend }, out := t.out } ∧
      (∀ v, bit t.host.masked v = (bit s.host.masked v && v != vec.val)) ∧
      (∀ v, bit t.host.msixPend v = (bit s.host.msixPend v && v != vec.val)) ∧
      t.out = s.out ++ (if bit s.host.msixPend vec.val then [.msix vec.val] else []))) ∧
    (∀ (off : BitVec 26) (value : BitVec 64), off.toNat = 0x800018 → Completes (.evrRdseqWrite off 8 value) s (fun t =>
      t = { s with ev := { s.ev with rdSeq := value.extractLsb' 0 48, latched := t.ev.latched } } ∧
      (∀ r, t.ev.latched = some r → r ∈ s.ev.store ∧ (value.extractLsb' 0 48).toNat ≤ r.seq.toNat ∧
        ∀ x ∈ s.ev.store, (value.extractLsb' 0 48).toNat ≤ x.seq.toNat → r.seq.toNat ≤ x.seq.toNat) ∧
      (t.ev.latched = none ↔ ∀ x ∈ s.ev.store, x.seq.toNat < (value.extractLsb' 0 48).toNat))) ∧
    (∀ (off : BitVec 26) (value : BitVec 64), off.toNat = 0x800018 → exec (.evrRdseqWrite off 4 value) s =
      .next { s with ev := { s.ev with rdSeq := s.ev.rdSeq.extractLsb' 32 16 ++ value.extractLsb' 0 32 } }) ∧
    (∀ (off : BitVec 26) (value : BitVec 64),
      (off.toNat = 0x50000 → exec (.registerWrite .host ⟨0, off⟩ 8 value) s = .next { s with host := { s.host with
        act := value.extractLsb' 24 8, free := bit value 16, hbmEn := value.extractLsb' 8 8, spEn := value.extractLsb' 0 8 } }) ∧
      (off.toNat = 0x10008 → exec (.registerWrite .host ⟨0, off⟩ 8 value) s = .next { s with asz := { s.asz with addr := value } }) ∧
      (off.toNat = 0x10014 → exec (.registerWrite .host ⟨0, off⟩ 4 value) s = .next { s with asz := { s.asz with
        relTb := value.extractLsb' 0 32 ++ s.asz.relTb.extractLsb' 0 32 } }) ∧
      (off.toNat = 0x900008 → Completes (.registerWrite .host ⟨0, off⟩ 4 value) s (fun t =>
        t = { s with sec := { s.sec with trig := t.sec.trig } } ∧ ∀ k < 5, bit t.sec.trig k = (bit s.sec.trig k && (!bit value k || s.justSet.contains (.trig k))))) ∧
      (∀ (vf : Nat) (k : Fin 32), 1 ≤ vf → vf ≤ 64 → off.toNat = 0x100000 + 16 * k.val → Completes (.registerWrite .host ⟨vf, off⟩ 8 value) s (fun t =>
        t = { s with host := { s.host with table := t.host.table } } ∧ t.host.entryWord (2048 + 32 * (vf - 1) + k.val) 0 = value.toNat ∧
        ∀ v, v ≠ 2048 + 32 * (vf - 1) + k.val → t.host.table.lookup v = s.host.table.lookup v)) ∧
      (off.toNat < 0x10000 → exec (.registerWrite .host ⟨0, off⟩ 8 value) s = .next s) ∧
      (∀ n, onDoorbell 0 off.toNat = false → (n ≠ 4 ∧ n ≠ 8 ∨ off.toNat % n ≠ 0) → exec (.registerWrite .host ⟨0, off⟩ n value) s = .next s))

/-- Session contexts and doorbells, input slots, and the resets of the host link. A write that sets VALID of a closed session gives its fields and counts 0; one that clears VALID closes it and drops its waiting doorbells, at the weir too; a write of another field of an open session is dropped with an advisory error (beside a VALID cleared too: log 39). A doorbell that its session's activity admits and accepts waits in line in the order of arrival and counts in RUNG and PEND; a refused one is answered by a refusal completion and rings nothing; one that finds no credit waits; at BUDGET 0 it is dropped with an advisory error (log 22). A slot half takes an EMPTY header in an idle slot, then at most one placement, whose input is fetched from the session's ring, a unit of its activity a line, whose lines and FULL header are written in idle slots and whose completion follows, or which is abandoned. A reset of a virtual function closes its sessions; one of PF0, a conventional reset and D3hot stop every partition, once the die-to-die link carries the stops, close every session, and mask every vector (log 6). Rests on 13 R324; 15 R342, R347, R349-R352. The number of a refused doorbell is open (DESIGN CHOICE, log 8). -/
def Obligations.SessionsTakeDoorbellsAndPlacements : Prop :=
  ∀ s : State,
    (s.hostUp = true →
      (∀ (n : Fin 4096) (value : BitVec 64), (s.session n.val).valid = false → bit value 63 = true →
        Completes (.sesCtxWrite n 0 8 value) s (fun t => t = { s with host := { s.host with sessions := t.host.sessions } } ∧
          (∀ m, m ≠ n.val → t.session m = s.session m) ∧
          t.session n.val = { s.session n.val with
            valid := true, func := value.extractLsb' 56 7, act := value.extractLsb' 48 8, part := value.extractLsb' 45 3
            slot := value.extractLsb' 40 5, vec := value.extractLsb' 24 11, nring := value.extractLsb' 0 16
            pend := 0, placed := 0, rung := 0, bells := 0, outs := 0, cpls := 0 })) ∧
      (∀ (n : Fin 4096) (value : BitVec 64), (s.session n.val).valid = true → bit value 63 = false →
        Completes (.sesCtxWrite n 0 8 value) s (fun t => t.mem = s.mem ∧ t.cores = s.cores ∧
          t.out = s.out ++ (if setBit value 63 true = (s.session n.val).word 0 then [] else [.advisoryError]) ∧
          (∀ m, m ≠ n.val → t.session m = s.session m) ∧ t.session n.val = { s.session n.val with valid := false, pend := 0 } ∧
          t.host.bells = s.host.bells.filter (fun b => b.session != n) ∧ ∀ k fn v order tb, (k, Transfer.bell n fn v order tb) ∉ t.asz.waiting)) ∧
      (∀ (n : Fin 4096) (j : Fin 4) (value : BitVec 64), (s.session n.val).valid = true →
        exec (.sesCtxWrite n (BitVec.ofNat 6 (8 * (j.val + 1))) 8 value) s = .next { s with out := s.out ++ [.advisoryError] }) ∧
      (∀ (n : Fin 4096) (fn : Nat) (value : BitVec 64), let x := s.session n.val; let lines := fld value 23 0
        let refused := fn ≠ x.func.toNat ∨ lines = 0 ∨ x.inLn.toNat < lines ∨ x.pend = x.nring ∨ s.halfLines x < lines + 1
        x.valid = true → fn ≤ 64 →
        ((s.act x.act.toNat).budget = 0xFFFFF → s.queued x.act.toNat = false → ¬ refused →
          Completes (.doorbell n fn 8 value) s (fun t => t = { s with
            host := { s.host with sessions := t.host.sessions, bells := t.host.bells, rings := s.host.rings + 1 }, asz := { s.asz with acts := t.asz.acts } } ∧
            (∃ before after, s.host.bells = before ++ after ∧ (∀ b ∈ before, b.order ≤ s.host.rings) ∧ (∀ b ∈ after.head?, s.host.rings < b.order) ∧
              t.host.bells = before ++ { order := s.host.rings, session := n, lines := lines, tag := value.extractLsb' 32 32, seq := x.bells, tb := s.clk.tb } :: after) ∧
            (∀ m, m ≠ n.val → t.session m = s.session m) ∧ (∀ k, t.act k = s.act k) ∧
            t.session n.val = { x with bells := x.bells + 1, rung := x.rung + 1, pend := x.pend + 1 })) ∧
        ((s.act x.act.toNat).budget = 0xFFFFF → s.queued x.act.toNat = false → refused →
          Completes (.doorbell n fn 8 value) s (fun t => t.host.bells = s.host.bells ∧ t.mem = s.mem ∧ t.cores = s.cores ∧ t.parts = s.parts ∧
            (∀ m, m ≠ n.val → t.session m = s.session m) ∧ t.session n.val = { x with cpls := x.cpls + 1 } ∧
            ∃ number rest, t.out = s.out ++ .hostWrite (x.cpl.toNat + 16 * (x.cpls % (2 * x.nring.toNat)))
              (leBytes 1 3 ++ leBytes 1 (if fn ≠ x.func.toNat then 1 else if lines = 0 ∨ x.inLn.toNat < lines then 2 else if x.pend = x.nring then 3 else 4) ++
                leBytes 2 0 ++ leBytes 4 lines ++ leBytes 4 (value.extractLsb' 32 32).toNat ++ leBytes 4 number) :: rest)) ∧
        ((s.act x.act.toNat).budget = 0 → exec (.doorbell n fn 8 value) s =
          .next { s with host := { s.host with rings := s.host.rings + 1 }, out := s.out ++ [.advisoryError] }) ∧
        ((s.act x.act.toNat).budget ≠ 0 → (s.act x.act.toNat).budget ≠ 0xFFFFF → (s.act x.act.toNat).credit = 0 →
          exec (.doorbell n fn 8 value) s = .next { s with
            host := { s.host with rings := s.host.rings + 1 }
            asz := { s.asz with waiting := s.asz.waiting ++ [(x.act.toNat, .bell n fn value s.host.rings s.clk.tb)] } })) ∧
      (∀ vf, 1 ≤ vf → vf ≤ 64 → Completes (.vfFlr vf) s (fun t => t.mem = s.mem ∧ t.cores = s.cores ∧ t.out = s.out ∧
        ∀ m, t.session m = if (s.session m).func.toNat = vf then { s.session m with valid := false, pend := 0 } else s.session m))) ∧
    (∀ (p : PartId) (slot : Fin 32), let sl := (s.part p).slots[slot]; let b0 := sl.lineAt (sl.k % 2) 0
      ((s.part p).live = true → sl.valid = true → sl.readyFor ≤ sl.k → s.fab.d2dTraining = false →
        ((s.replaying p = true ∨ s.writeFree b0 = true) → Completes (.slotEmptyWrite p slot) s (fun t =>
          t.parts = (s.modSlot p slot (fun _ => { sl with readyFor := sl.k + 1, filled := false })).parts ∧
          (∀ o, s.replaying p = false → sliceOwner b0 = some o → (s.liveOf o).isSome = true → t.mem = s.mem ∧ t.wbuf = s.wbuf ++ [(b0, 0)]) ∧
          (s.replaying p = true → t.mem = s.mem ∧ t.wbuf = s.wbuf))) ∧
        (s.replaying p = false → s.writeFree b0 = false → exec (.slotEmptyWrite p slot) s = .next s)) ∧
      (∀ b, s.oldestBell p slot = some b → s.hostUp = true → s.halfOpen p sl = true → sl.placing = none → sl.filled = false →
        let x := s.session b.session.val
        let a := s.act x.act.toNat
        let under := fun owed : Nat => (s.modSlot p slot (fun _ => { sl with placing := some b.key, fetchOwed := owed })).parts
        (s.queued x.act.toNat = false → a.budget ≠ 0 → (a.budget = 0xFFFFF ∨ b.lines ≤ a.credit) →
          Completes (.inputPlacement p slot) s (fun t => t.parts = under 0 ∧ t.host = s.host ∧ t.cores = s.cores ∧ t.mem = s.mem ∧
            (a.budget ≠ 0xFFFFF → (t.act x.act.toNat).credit = a.credit - b.lines) ∧ t.asz.waiting = s.asz.waiting ∧
            t.out = s.out ++ [.hostRead (x.inRing.toNat + 64 * x.inLn.toNat * (b.seq % x.nring.toNat)) (64 * b.lines)])) ∧
        (s.queued x.act.toNat = false → a.budget ≠ 0 → a.budget ≠ 0xFFFFF → a.credit < b.lines →
          Completes (.inputPlacement p slot) s (fun t => t.parts = under (b.lines - a.credit) ∧ t.host = s.host ∧ t.cores = s.cores ∧ t.mem = s.mem ∧
            (t.act x.act.toNat).credit = 0 ∧ t.asz.waiting = s.asz.waiting ++ [(x.act.toNat, .fetch p slot)] ∧ t.out = s.out)) ∧
        (a.budget = 0 → exec (.inputPlacement p slot) s = .next s)) ∧
      (∀ (b : Doorbell) (lines : List Line), s.host.bells.find? (fun b => sl.placing == some b.key) = some b → s.hostUp = true →
        s.halfOpen p sl = true → sl.fetchOwed = 0 → lines.length = b.lines → (s.act (s.session b.session.val).act.toNat).budget = 0xFFFFF →
        s.queued (s.session b.session.val).act.toNat = false → s.soft = [] → (∀ w ∈ placementWrites sl b lines, w.addrs.any s.liveAt = true) →
        Completes (.placementComplete p slot lines) s (fun t => t.parts = s.parts ∧ t.mem = s.mem ∧ t.host = s.host ∧ t.out = s.out ∧
          t.soft = [{ id := s.softNext, todo := placementWrites sl b lines, owed := 0, got := [], bad := false, errs := [], source := 2, core := sl.core.val, fin := .placement p slot sl.k }])) ∧
      (∀ (b : Doorbell) (j : SoftJob) (k : Nat), j.fin = .placement p slot k → s.host.bells.find? (fun b => sl.placing == some b.key) = some b →
        let t := s.endSoft j
        t.parts = (s.modSlot p slot (fun _ => { sl with placing := none, filled := true })).parts ∧ t.mem = s.mem ∧
          t.host.bells = s.host.bells.erase b ∧
          (let x := s.session b.session.val
           t.session b.session.val = { x with placed := x.placed + 1, pend := x.pend - 1, cpls := x.cpls + 1 }) ∧
          ∃ rest, t.out = s.out ++ .hostWrite ((s.session b.session.val).cpl.toNat +
              16 * ((s.session b.session.val).cpls % (2 * (s.session b.session.val).nring.toNat)))
            (leBytes 1 1 ++ leBytes 1 0 ++ leBytes 2 0 ++ leBytes 4 b.lines ++ leBytes 4 b.tag.toNat ++ leBytes 4 (b.seq % 2 ^ 32)) :: rest) ∧
      (sl.placing.isSome = true → sl.dueCount < (s.part p).count + 8 → exec (.placementSuppress p slot) s =
        .next ((s.dropSoft (fun f => f == SoftEnd.placement p slot sl.k)).modSlot p slot (fun _ => { sl with placing := none, fetchOwed := 0 })))) ∧
    (let down := fun (d3 : Bool) (t : State) =>
       (∀ p, (t.part p).release = none ∧ (s.fab.d2dTraining = false → (t.part p).live = false) ∧
         (s.fab.d2dTraining = true → (t.part p).stopAsked = true ∧ (t.part p).pstate = (s.part p).pstate)) ∧ (∀ n, (t.session n).valid = false) ∧ t.host.bells = [] ∧
       t.host.act = 0 ∧ t.host.free = false ∧ t.host.hbmEn = 0 ∧ t.host.spEn = 0 ∧ t.host.masked = BitVec.allOnes 4096 ∧
       t.host.msixPend = 0 ∧ t.host.table = [] ∧ t.host.d3hot = d3 ∧ t.mem = s.mem ∧ t.sec = s.sec ∧ t.clk = s.clk
     (s.hostUp = true → Completes .pf0Flr s (down s.host.d3hot)) ∧
     (s.mgrUp = true → Completes .conventionalReset s (down false)) ∧
     (s.hostUp = true → Completes .d3hotEntry s (down true)) ∧
     (s.mgrUp = true → s.host.linkUp = true → exec .d0Return s = .next { s with host := { s.host with d3hot := false } }))

/-- The host's windows and the weir. A read of HBM lines that may be touched and that the weir admits returns those bytes of device memory; one with a line that may not, or at BUDGET 0, returns Completer Abort, with nothing else changed. A read of a live partition's slice waits for idle slots; its last line answers it, or Completer Abort after an uncorrectable one. An admitted write of slice lines of no live partition changes exactly the bytes written, as the cycle ends where cycles pass; one of a forbidden line is dropped with its record. At a new period every unit that waits is counted, every credit becomes its budget, and a waiting access is admitted as far as the credit goes. Rests on 04 R82, R84; 13 R324-R326; 15 R346. A job that pays over several periods and WAIT in units are log 22, lines moved one by one and HBM lines read at once logs 38 and 69 (DEDUCED). -/
def Obligations.WindowsAreMeteredAndChecked : Prop :=
  ∀ s : State, s.mgrUp = true → s.host.linkUp = true → s.host.d3hot = false → s.soft = [] →
    let n := s.host.act.toNat
    let admits := fun units : Nat => (s.act n).budget ≠ 0 ∧ s.queued n = false ∧ ((s.act n).budget = 0xFFFFF ∨ units ≤ (s.act n).credit)
    let bytesAt := fun (dev len : Nat) => (((List.range (spanLines dev len).2).flatMap (fun i =>
      lineBytes (s.lineNow ((spanLines dev len).1 + 64 * i)))).drop (dev % 64)).take len
    (∀ (off2 : BitVec 31) (off4 : BitVec 38) (len : Nat), 0 < len →
      (∀ x ∈ [(Instr.bar2Access off2 (.read len) [], off2.toNat), (.bar4Access off4 (.read len) [], hbmBase + off4.toNat)],
        (s.windowOk x.2 len false = false ∨ (s.act n).budget = 0) → exec x.1 s = .next { s with out := s.out ++ [.readData none] }) ∧
      (let dev := hbmBase + off4.toNat; let l := spanLines dev len
        s.windowOk dev len false = true → admits l.2 → s.fab.d2dTraining = false → (∀ i < l.2, s.poisoned (l.1 + 64 * i) = false) →
        Completes (.bar4Access off4 (.read len) []) s (fun t => t.mem = s.mem ∧ t.cores = s.cores ∧ t.parts = s.parts ∧ t.host = s.host ∧ t.soft = [] ∧
          ((s.act n).budget ≠ 0xFFFFF → (t.act n).credit = (s.act n).credit - l.2) ∧
          t.out = s.out ++ [.readData (some (bytesAt dev len))])) ∧
      (let dev := off2.toNat; let l := spanLines dev len
        s.windowOk dev len false = true → admits l.2 → s.liveAt l.1 = true →
        Completes (.bar2Access off2 (.read len) []) s (fun t => t.mem = s.mem ∧ t.cores = s.cores ∧ t.parts = s.parts ∧ t.out = s.out ∧
          t.soft = [{ id := s.softNext, todo := (List.range l.2).map (fun i => SoftLine.read (l.1 + 64 * i)), owed := 0, got := [], bad := false, errs := [], source := 4, core := 0xFF, fin := .host dev len }]))) ∧
    (∀ (j : SoftJob) (dev len : Nat), j.fin = .host dev len → s.endSoft j = { s with out := s.out ++ [.readData
      (if j.bad then none else some ((((j.got.map (fun x => lineBytes x.2)).flatten).drop (dev % 64)).take len))] }) ∧
    (∀ (off2 : BitVec 31) (data : List Byte), 0 < data.length → let dev := off2.toNat; let l := spanLines dev data.length
      (s.windowOk dev data.length true = false → Completes (.bar2Access off2 (.write data) []) s (fun t =>
        t = { s with ev := t.ev, out := t.out } ∧ t.ev = (s.event 0x306 3 none none (leBytes 8 dev ++ leBytes 1 0)).ev ∧
        t.out = s.out ++ (if s.shutSpan dev data.length then [.advisoryError] else []))) ∧
      (s.windowOk dev data.length true = true → admits l.2 → s.fab.d2dTraining = false → s.softUsed = [] → s.wbuf = [] → l.2 ≤ 32 → MemoryCanonical s →
        (∀ i < l.2, s.liveAt (l.1 + 64 * i) = false ∧ s.poisoned (l.1 + 64 * i) = false ∧ s.lineNow (l.1 + 64 * i) = s.line (l.1 + 64 * i)) →
        Completes (.bar2Access off2 (.write data) []) s (fun t =>
          (∀ i (h : i < data.length), memRead t.commit.mem (dev + i) = data[i]) ∧
          (∀ a, (a < dev ∨ dev + data.length ≤ a) → memRead t.commit.mem a = memRead s.mem a) ∧
          (s.clk.running = true → t.mem = s.mem) ∧ (s.clk.running = false → t.wbuf = []) ∧ t.parts = s.parts ∧ t.host = s.host ∧ t.soft = [] ∧
          ∀ c, (t.core c).ctl = (s.core c).ctl ∧ (t.core c).vec = (s.core c).vec ∧ (t.core c).syn = (s.core c).syn))) ∧
    (s.clk.tb.toNat / 1000 ≠ s.asz.period → s.asz.waiting = [] → Completes .weirPeriod s (fun t =>
      t = { s with asz := { s.asz with period := s.clk.tb.toNat / 1000, acts := t.asz.acts } } ∧
      ∀ k, t.act k = { s.act k with credit := if (s.asz.acts.lookup k).isSome then (s.act k).budget.toNat else (s.act k).credit })) ∧
    (∀ (k : Nat) (j : SoftJob) (x : SoftLine) (xs : List SoftLine), let u := { s with soft := [j] }
      s.clk.tb.toNat / 1000 ≠ s.asz.period → s.asz.waiting = [(k, .lines j.id)] → j.todo = x :: xs → x.addrs.any s.liveAt = true →
      s.jobOpen j = true → (s.act k).budget ≠ 0 → (s.act k).budget ≠ 0xFFFFF →
      let paid := min j.owed (s.act k).budget.toNat
      Completes .weirPeriod u (fun t => t.mem = s.mem ∧ t.out = s.out ∧ t.soft = [{ j with owed := j.owed - paid }] ∧
        t.asz.waiting = (if paid < j.owed then s.asz.waiting else []) ∧
        t.act k = { s.act k with credit := (s.act k).budget.toNat - paid, wait := (s.act k).wait + BitVec.ofNat 64 j.owed }))

/-! ## Assize, power and clock -/

/-- Assize commands of a requester that reaches the part, BUSY 0, the die-to-die link in service. A load whose checks all pass holds BUSY until its second pass, which gives every partition its record, stops or empties the affected ones and ends with CODE 0 when it reads the same image, and leaves them empty with STAGE 7 when it reads another; a load that fails a check ends with its STAGE and CODE and a record and changes no partition; a release prepares each stopped partition of its mask for a cycle 8,192 cycles ahead and is refused with STAGE 6 when one is not stopped or in reset; in its release cycle a partition runs, every core at its entry point, its slots EMPTY; a stop stops the released partitions of its mask; ARM closes a checked transaction's code regions and starts the writing of its bundles, after whose last line it is armed, or disarmed at once where its partition has halted; CANCEL disarms it with result 2. Each stores its PMASK, a manager module's excepted. Rests on 13 R312-R322. PSTATE before the release cycle is log 19, the record of a refused RELEASE and none of a refused STOP log 20, what a transaction's registers hold between commands log 21 (all DEDUCED); CODE 0 of a signature failure is R314's, not R313's; where a load or a release leaves the set point and a change is log 35 (DESIGN CHOICE). -/
def Obligations.AssizeCommandsMoveTheirPartitions : Prop :=
  ∀ s : State,
    (∀ req, s.reaches req = true → s.asz.busy = false → s.fab.d2dTraining = false →
      let ends := fun (stage code : Nat) (t : State) =>
        t.asz.busy = false ∧ t.asz.stage = BitVec.ofNat 4 stage ∧ t.asz.code = BitVec.ofNat 8 code ∧ t.pow = s.pow ∧ t.clk = s.clk ∧ t.sec = s.sec
      let mask := fun pmask : BitVec 8 => if req = .fabric then s.asz.pmask else pmask
      (∀ img pmask, s.firstPass img true = (0, 0) →
        exec (.load req img pmask) s = .next { s with asz := { s.asz with pmask := mask pmask, busy := true, reading := none, applying := some { img := img, req := req } } }) ∧
      (∀ img pmask stage code, s.firstPass img true = (stage, code) → (stage, code) ≠ (0, 0) → (stage, code) ≠ (2, 0) →
        Completes (.load req img pmask) s (fun t => ends stage code t ∧ t.asz.pmask = mask pmask ∧ t.parts = s.parts ∧ t.cores = s.cores ∧ t.mem = s.mem ∧
          t.ev = (s.event 0x301 4 none none (refusedBody 1 stage code (imgPmask img) (digestPrefix img))).ev)) ∧
      (∀ img pmask, s.firstPass img true = (2, 0) → s.asz.sigFail.toNat < 2 →
        Completes (.load req img pmask) s (fun t => ends 2 0 t ∧ t.parts = s.parts ∧ t.cores = s.cores ∧ t.mem = s.mem ∧
          t.asz.sigFail = s.asz.sigFail + 1)) ∧
      (∀ img pmask, s.firstPass img true = (2, 0) → 2 ≤ s.asz.sigFail.toNat →
        Completes (.load req img pmask) s (fun t => bit t.sec.trig 3 = true ∧ (∀ p, (t.part p).live = false))) ∧
      (∀ pmask, s.anyInReset pmask = false → (∀ p, bit pmask p.val = true → (s.part p).pstate = .stopped) → s.replayRefused pmask = false →
        Completes (.release req pmask) s (fun t => ends 0 0 t ∧
          (∀ p, bit pmask p.val = false → t.part p = s.part p) ∧
          (∀ p, bit pmask p.val = true → (t.part p).pstate = .stopped ∧ (t.part p).pr = (s.part p).pr ∧
            (t.part p).release = some (s.clk.cycle.toNat + 8192, s.asz.relTb.toNat) ∧ (t.part p).icount = 0 ∧ (t.part p).cyc = 0 ∧
            (t.part p).total = 0 ∧ (t.part p).armed = none ∧ (t.part p).slots = s.manifestSlots p) ∧
          (∀ c p, s.partOf c = some p → bit pmask p.val = true → (t.core c).ctl = .reset ∧ (t.core c).vec.flags = 0 ∧
            (t.core c).syn.s = .replicate 48 0 ∧ (t.core c).syn.bar = .replicate 16 .idle ∧ (t.core c).mu.staging = .replicate 16 none) ∧
          (∀ c, (∀ p, s.partOf c = some p → bit pmask p.val = false) →
            (t.core c).ctl = (s.core c).ctl ∧ (t.core c).vec = (s.core c).vec ∧ (t.core c).syn = (s.core c).syn ∧ (t.core c).str = (s.core c).str) ∧
          t.mem = s.mem)) ∧
      (∀ pmask, s.anyInReset pmask = true → Completes (.release req pmask) s (fun t => ends 6 7 t ∧ t.parts = s.parts ∧ t.cores = s.cores ∧ t.mem = s.mem)) ∧
      (∀ pmask p, s.anyInReset pmask = false → bit pmask p.val = true → (s.part p).pstate ≠ .stopped →
        Completes (.release req pmask) s (fun t => ends 6 1 t ∧ t.parts = s.parts ∧ t.cores = s.cores ∧ t.mem = s.mem)) ∧
      (∀ pmask, s.anyInReset pmask = false → Completes (.stop req pmask) s (fun t => ends 0 0 t ∧ t.mem = s.mem ∧
        (∀ p, (t.part p).pstate = if bit pmask p.val && (s.part p).live then .stopped else (s.part p).pstate) ∧
        (∀ p, (t.part p).icount = (s.part p).icount ∧ (t.part p).pr = (s.part p).pr) ∧
        (∀ p, bit pmask p.val = true → (s.part p).live = true → (s.part p).pstate = .halted → (s.part p).haltTold = true →
          t.part p = { s.part p with pstate := .stopped, halting := [] }))) ∧
      (∀ pmask, s.anyInReset pmask = true → Completes (.stop req pmask) s (fun t => ends 6 7 t ∧ t.parts = s.parts ∧ t.cores = s.cores ∧ t.mem = s.mem)) ∧
      (∀ img pmask p x, s.firstPass img false = (0, 0) → allParts.find? (imgAffects img) = some p → imgPart img 10 p = some x →
        let a : Armed := { id := Fin.ofNat 16 (secNat img x 0 1), epv := decide (secNat img x 1 1 = 1), token := BitVec.ofNat 32 (secNat img x 8 4), img := img }
        (codeWrites img ≠ [] → s.soft = [] → (∀ w ∈ codeWrites img, w.addrs.any s.liveAt = true) → Completes (.arm req img pmask) s (fun t =>
          t.asz.busy = true ∧ t.asz.pmask = mask pmask ∧ t.parts = s.parts ∧ t.mem = s.mem ∧ t.pow = s.pow ∧ t.clk = s.clk ∧ t.sec = s.sec ∧
          t.soft = [{ id := s.softNext, todo := codeWrites img, owed := 0, got := [], bad := false, errs := [], source := 4, core := 0xFF, fin := .arm p a }] ∧
          ∀ c, (t.core c).ctl = (s.core c).ctl ∧ (t.core c).vec = (s.core c).vec ∧ (t.core c).syn = (s.core c).syn)) ∧
        (∀ j : SoftJob, j.fin = .arm p a → let t := s.endSoft j
          ends 0 0 t ∧ (∀ q, q ≠ p → t.part q = s.part q) ∧ t.mem = s.mem ∧ (t.part p).txnId = a.id ∧ (t.part p).txnIcount = 0 ∧
          (t.part p).pstate = (s.part p).pstate ∧ (t.part p).icount = (s.part p).icount ∧
          ((s.part p).pstate = .running → (t.part p).armed = some a ∧ (t.part p).txnResult = 0) ∧
          ((s.part p).pstate ≠ .running → (t.part p).armed = none ∧ (t.part p).txnResult = 3))) ∧
      (∀ pmask, Completes (.cancel req pmask) s (fun t => ends 0 0 t ∧ t.mem = s.mem ∧
        (∀ p a, bit pmask p.val = true → (s.part p).armed = some a → s.committing p = false →
          (t.part p).armed = none ∧ (t.part p).txnResult = 2 ∧ (t.part p).txnId = a.id ∧ (t.part p).pstate = (s.part p).pstate) ∧
        (∀ p, (bit pmask p.val = false ∨ (s.part p).armed = none ∨ s.committing p = true) → t.part p = s.part p) ∧
        ∀ c, (t.core c).ctl = (s.core c).ctl ∧ (t.core c).vec = (s.core c).vec ∧ (t.core c).syn = (s.core c).syn))) ∧
    (∀ a img, s.asz.applying = some a → s.fab.d2dTraining = false →
      (imgDigest img = imgDigest a.img → Completes (.assizeApply img) s (fun t =>
        t.asz.busy = false ∧ t.asz.applying = none ∧ t.asz.stage = 0 ∧ t.asz.code = 0 ∧ t.asz.loaded = some img ∧
        t.asz.digest = digestPrefix img ∧ (t.asz.floor, t.asz.ceil, t.asz.boost) = imgClock img ∧
        (∀ p, (t.part p).pr = imgParts img p ∧
          (imgAffects img p = true → (t.part p).pstate = (if (imgParts img p).valid then .stopped else .empty) ∧ (t.part p).release = none) ∧
          (imgAffects img p = false → t.part p = { s.part p with pr := imgParts img p })) ∧
        t.sec = s.sec ∧ t.ev = s.ev ∧ t.clk.tb = s.clk.tb ∧ t.clk.cycle = s.clk.cycle ∧ t.pow = { s.pow with rails := t.pow.rails } ∧
        (let bound := fun mhz : Nat => max t.asz.floor (min mhz (effCeil s.pow.cls.toNat s.pow.calBad t.asz.ceil t.asz.boost))
         ((s.clk.shownMhz = 0 ∨ bound s.clk.setMhz = s.clk.setMhz) → t.pow = s.pow ∧
           t.clk = { s.clk with change := t.clk.change, deferred := s.clk.deferred.map bound } ∧
           (s.clk.change = none → t.clk.change = none) ∧
           ∀ k, s.clk.change = some k → t.clk.change = if bound k.target = s.clk.setMhz then none else some { k with target := bound k.target }) ∧
         (s.clk.shownMhz ≠ 0 → bound s.clk.setMhz ≠ s.clk.setMhz → t.clk = { s.clk with
           setMhz := bound s.clk.setMhz, shownMhz := BitVec.ofNat 12 (bound s.clk.setMhz), change := none, deferred := none })))) ∧
      (imgDigest img ≠ imgDigest a.img → Completes (.assizeApply img) s (fun t =>
        t.asz.busy = false ∧ t.asz.applying = none ∧ t.asz.stage = 7 ∧ t.asz.code = 0 ∧ t.asz.loaded = s.asz.loaded ∧
        (∀ p, imgAffects a.img p = true → (t.part p).pstate = .empty ∧ (t.part p).pr = .none ∧ (t.part p).release = none ∧
          ∀ x ∈ s.storageOf p ++ s.imgStorage a.img p, ∀ b, x.1 ≤ b → b < x.1 + x.2 → memRead t.mem b = 0) ∧
        (∀ p, imgAffects a.img p = false → t.part p = s.part p) ∧ t.pow = s.pow ∧ t.sec = s.sec ∧ t.clk = s.clk ∧
        ∀ c, (∀ p, s.partOf c = some p → imgAffects a.img p = false) → (allParts.all (fun p => !(imgAffects a.img p && (s.part p).pr.covers c))) = true →
          (t.core c).ctl = (s.core c).ctl ∧ (t.core c).vec = (s.core c).vec ∧ (t.core c).syn = (s.core c).syn))) ∧
    (∀ p, s.releaseDue p = true → Completes (.releaseCycle p) s (fun t =>
      (t.part p).pstate = .running ∧ (t.part p).release = none ∧ (t.part p).tb0 = s.clk.sample ∧ (t.part p).icount = (s.part p).icount ∧
      (∀ q, q ≠ p → t.part q = s.part q) ∧ 
      (let f := s.releasePoint p
       let here := { s.clk with setMhz := f, shownMhz := BitVec.ofNat 12 f }
       ((s.clk.change = none ∨ f = s.clk.setMhz) → t.clk = here) ∧
       ∀ k, s.clk.change = some k → f ≠ s.clk.setMhz → let goal := s.clk.deferred.getD k.target
         (goal = f → t.clk = { here with change := none, deferred := none }) ∧
         (∀ e, goal ≠ f → s.clk.endedAt = some e → s.ns < e + 50000 → t.clk = { here with change := none, deferred := some goal }) ∧
         (goal ≠ f → (∀ e ∈ s.clk.endedAt, e + 50000 ≤ s.ns) → t.clk = { here with deferred := none, change := some {
           n := s.clk.cycle.toNat + 8192, target := goal, old := f, settled := decide (goal ≤ f), started := false, nextStep := s.clk.cycle.toNat + 8192 } })) ∧
      s.asz.floor ≤ s.releasePoint p ∧
      (∀ c, (t.core c).ctl = (if s.partOf c = some p then { (s.core c).ctl with pc := (s.core c).cfg.entry.setWidth 48 } else (s.core c).ctl) ∧
        (t.core c).vec = (s.core c).vec ∧ (t.core c).syn = (s.core c).syn ∧ (t.core c).str = (s.core c).str ∧ (t.core c).mu = (s.core c).mu) ∧
      (s.replaying p = true → t.mem = s.mem) ∧
      (MemoryCanonical s → s.replaying p = false →
        (∀ (i : Fin 32) h k, h < 2 → k < 64 → (s.part p).slots[i].valid = true → memRead t.mem ((s.part p).slots[i].lineAt h 0 + k) = 0) ∧
        ∀ a, (∀ (i : Fin 32) h, h < 2 → (s.part p).slots[i].valid = true →
          (a < (s.part p).slots[i].lineAt h 0 ∨ (s.part p).slots[i].lineAt h 0 + 64 ≤ a)) → memRead t.mem a = memRead s.mem a)))

/-- The input and the rails. An accepted turn-on, at an input of at least 39.0 V, boots the part: MGR up, the other rails to follow, memory empty, every partition empty, READY 0, BUSY 1, no session key, its cause recorded, life cycle, keys and event store kept; no bank that verifies, or an invalid strap, leaves standby; the rails that are left come up, PWR_GOOD and the oscillator follow, a crossing that fails alignment leaves the part not ready, and at the end of the wipe READY is 1 and BUSY 0. A rail that fails in its turn leaves standby with PWRFAIL and a record, MGR's, until the next rail is up, no record; no other fails; a storage indicator found tripped raises trigger 4 once; a sample sets VIN, IIN and the bands and starts the times of R328; each shutdown condition that has lasted powers the part down with its record, the manager rail's without, every rail off; a latch is released after 100 ms below 20 V. Rests on 14 R328-R331; 16 R366, R371, R379; 18 R412, R414. The order and records of rails and power-downs are log 32, the inner steps of a boot log 33, the stop beyond the ratings log 72 (DEDUCED). -/
def Obligations.PowerFollowsTheInput : Prop :=
  ∀ s : State,
    let tripped := fun b : BootFindings => s.sec.storageTripped || (s.sec.storageArmed && b.storageTripped)
    let boots := fun (b : BootFindings) (cause : BitVec 4) (t : State) =>
      t.mem = [] ∧ (∀ p, (t.part p).pstate = .empty) ∧ t.sec.ready = false ∧ t.sec.sessionKeys = false ∧ t.sec.cause = cause ∧
      t.pow.cal = s.pow.cal ∧ t.sec.lcs = s.sec.lcs ∧ t.sec.reprov = s.sec.reprov ∧ t.grade = s.grade ∧ t.clk.tb = 0 ∧
      (b.bankOk = (false, false) → t.pow.state = .standby ∧ t.sec.bootFail = true) ∧
      (b.straps = 3 → t.pow.state = .standby) ∧
      ((b.bankOk.1 = true ∨ b.bankOk.2 = true) → s.sec.bootFail = false → t.sec.storageArmed = false ∧ t.sec.storageTripped = false ∧ bit t.sec.trig 4 = tripped b) ∧
      (b.straps ≠ 3 → b.bankOk.1 = true → b.tamperOpen = false → tripped b = false → b.calOk = (true, true) → s.pow.cal.magicOk = true → s.pow.cal.crcOk = true →
        t.booting = true ∧ t.pow.align = b.align ∧ t.clk.running = false ∧
        (∀ r : Fin 8, t.pow.rails[r] = if r = 5 then railVolts 5 else 0) ∧ t.pow.state = .on ∧ t.pow.cls = b.straps ∧ t.pow.calBad = false ∧ t.asz.busy = true ∧ t.sec.phase = .cold ∧
        t.sec.trig = 0 ∧ t.sec.aik = s.sec.aik ∧ t.sec.storageKey = s.sec.storageKey ∧ t.ev.store = s.ev.store ∧
        (∀ f, s.sec.fwPending = some f → t.sec.fwVersion = f.version ∧ t.sec.bank = !s.sec.bank))
    let down := fun (state : PowerState) (t : State) =>
      t.mem = [] ∧ (∀ p, (t.part p).pstate = .empty) ∧ t.pow.state = state ∧ t.pow.pwrGood = false ∧ t.clk.running = false ∧
      t.sec.cause = 7 ∧ t.sec.ready = false ∧ t.host.linkUp = false ∧ t.host.sessions = [] ∧ t.sec.lcs = s.sec.lcs ∧ t.pow.cal = s.pow.cal ∧
      t.sec.storageArmed = (s.sec.storageArmed || decide (state ≠ .standby)) ∧ t.pow.thermAlert = (s.pow.thermAlert && decide (state = .standby)) ∧
      ∀ r : Fin 8, t.pow.rails[r] = 0
    let told := fun (cause : BitVec 8) (t : State) =>
      t.ev = { (s.event 0x403 6 none none [cause, 0xFF]).ev with rdSeq := 0, latched := none }
    let plain := fun (t : State) => t.mem = s.mem ∧ t.cores = s.cores ∧ t.parts = s.parts ∧ t.clk = s.clk ∧ t.sec = s.sec ∧ t.asz = s.asz
    (∀ b, s.pow.state = .off → Completes (.coldReset b) s (boots b (if s.sec.cause = 7 then 7 else 1))) ∧
    (∀ b, s.pow.state = .coldWait → s.pow.input < 39000 → exec (.coldCommandTurnOn b) s = .next s) ∧
    (∀ b, s.pow.state = .coldWait → s.pow.downAt + 100000000 ≤ s.ns → 39000 ≤ s.pow.input → Completes (.coldCommandTurnOn b) s (boots b 2)) ∧
    (s.pow.state = .on → s.sec.phase = .cold → s.sec.bootFail = false → s.sec.alignFail = false →
      (s.pow.pwrGood = true ∨ s.pow.align = none → Completes .bootReady s (fun t =>
        t.mem = [] ∧ t.sec = { s.sec with phase := .ready, ready := true, wipe := false } ∧
        t.asz = { s.asz with busy := false } ∧ t.cores = s.cores ∧ t.parts = s.parts ∧ t.ev = s.ev ∧ t.pow.pwrGood = true ∧
        (s.pow.pwrGood = true → t.pow = s.pow ∧ t.clk = s.clk) ∧
        (s.pow.pwrGood = false → t.clk = { s.clk with running := true } ∧
          ∀ r : Fin 8, t.pow.rails[r] = if s.pow.rails[r] = 0 then railVolts r else s.pow.rails[r]))) ∧
      (∀ f, s.pow.pwrGood = false → s.pow.align = some f → Completes .bootReady s (fun t => t.pow.pwrGood = true ∧ t.clk.running = false ∧
        t.sec = { s.sec with alignFail := true } ∧ t.asz = s.asz ∧ t.ev = (s.event 0x104 6 none none (leBytes 2 f.core.val ++ leBytes 1 f.side.val)).ev))) ∧
    (s.booting = true →
      let turn := ([5, 6, 7, 2, 3, 4, 1, 0] : List (Fin 8)).find? (fun r => s.pow.rails[r] == 0)
      (∀ rail, turn ≠ some rail → (rail ≠ 5 ∨ turn ≠ some 6) → exec (.railFail rail) s = .next s) ∧
      (∀ rail : Fin 8, turn = some rail → rail ≠ 5 → Completes (.railFail rail) s (fun t => t.pow.state = .standby ∧ t.pow.pwrFail = true ∧
        t.pow.pwrGood = false ∧ t.clk.running = false ∧ (∀ r : Fin 8, t.pow.rails[r] = if r = 5 then s.pow.rails[r] else 0) ∧
        t.ev = (s.event 0x404 6 none none [BitVec.ofNat 8 (min 6 rail.val)]).ev ∧ t.sec = s.sec)) ∧
      ((turn = some 5 ∨ turn = some 6) → Completes (.railFail 5) s (fun t => down .off t ∧ t.ev = { s.ev with rdSeq := 0, latched := none }))) ∧
    (∀ (mv ma : Nat), s.mgrUp = true → mv ≤ 66000 → Completes (.vinSample mv ma) s (fun t => plain t ∧
      t.pow.vin = BitVec.ofNat 16 (mv / 10) ∧ t.pow.iin = BitVec.ofNat 16 (min 0xFFFF (ma / 10)) ∧
      t.pow.inLowBand = decide (38000 ≤ mv ∧ mv < 40000) ∧ t.pow.inHighBand = decide (60000 < mv ∧ mv ≤ 63000) ∧
      t.pow.vinLow = (s.pow.vinLow || (decide (38000 ≤ mv ∧ mv < 40000) && !s.pow.inLowBand)) ∧
      t.pow.vinHigh = (s.pow.vinHigh || (decide (60000 < mv ∧ mv ≤ 63000) && !s.pow.inHighBand)) ∧
      t.pow.underNs = (if mv < 38000 then some (s.pow.underNs.getD s.ns) else none) ∧
      t.pow.overNs = (if 63000 < mv then some (s.pow.overNs.getD s.ns) else none) ∧
      t.pow.ampNs = (if 70000 < ma then some (s.pow.ampNs.getD s.ns) else none) ∧
      t.pow.lowSince = (if mv < 20000 then some (s.pow.lowSince.getD s.ns) else none) ∧ t.pow.state = s.pow.state ∧ t.pow.input = mv ∧
      (38000 ≤ mv → mv < 40000 → s.pow.inLowBand = false → .vinLow ∈ t.justSet))) ∧
    (∀ (mv ma : Nat), s.mgrUp = false → mv ≤ 66000 → exec (.vinSample mv ma) s = .next { s with pow := { s.pow with
      lowSince := if mv < 20000 then some (s.pow.lowSince.getD s.ns) else none, hiNs := none, input := mv } }) ∧
    (∀ (mv : Int) (ma : Nat), -60000 ≤ mv → mv < 0 → exec (.vinSample mv ma) s = exec (.vinSample 0 ma) s) ∧
    (∀ (mv : Int) (ma : Nat), (80000 < mv ∨ mv < -60000) → exec (.vinSample mv ma) s = .fault .outsideRatings) ∧
    (s.mgrUp = true →
      (∀ t0, s.pow.underNs = some t0 → t0 + 50000 ≤ s.ns → Completes .undervoltageShutdown s (fun t => down .off t ∧ told 1 t)) ∧
      (∀ t0, s.pow.overNs = some t0 → t0 + 10000 ≤ s.ns → Completes .overvoltageShutdown s (fun t => down .latchedOff t ∧ told 2 t)) ∧
      (∀ t0, s.pow.ampNs = some t0 → t0 + 50000 ≤ s.ns → Completes .overcurrentShutdown s (fun t => down .latchedOff t ∧ told 3 t)) ∧
      Completes .mgrLoss s (fun t => down .off t ∧ t.ev = { s.ev with rdSeq := 0, latched := none })) ∧
    (∀ t0, s.pow.state = .latchedOff → s.pow.lowSince = some t0 → t0 + 100000000 ≤ s.ns →
      exec .shutdownLatchRelease s = .next { s with pow := { s.pow with state := .off } })

/-- The oscillator, its reference, the temperatures and the envelope. A change starts at its cycle and moves the set point by at most 25 MHz towards its target every 16 cycles, then ends; 1,024 cycles before a rise the core rail stands at its target's voltage, or, unsettled, moves the rise by 8,192 cycles; nothing of it happens in another cycle; a request kept in the meantime is applied 50 us later. An adjustment publishes P and L, starts a new mean, chooses a step count from -100 to 8, -4 at a throttle temperature, and a target not below the floor, once at a count; the 100th in a row above the class envelope stops every running partition with its record. Sensors set their readings, THERM_ALERT_N and the stacks' refresh rates, and the first critical one powers down to standby. A droop counts; a core undervoltage stops the oscillator and resets the part warm; a lost reference drops the links until it returns. CAL_READ and CAL_WRITE answer in a secured session, a piece of 256 B at a time; the last of sixteen pieces writes the set. Rests on 12 R283, R286-R294; 14 R332-R339; 15 R365. Events that are not due are log 1, the layout and CRC of the set log 30, the excursion of a droop log 34, the controller before the first release and k where no step qualifies log 35. -/
def Obligations.ClockFollowsPowerAndTemperature : Prop :=
  ∀ s : State,
    let still := fun (t : State) => t.mem = s.mem ∧ t.cores = s.cores ∧ t.parts = s.parts ∧ t.asz = s.asz ∧ t.rr = s.rr
    let stepped := fun (k : FreqChange) (t : State) =>
      let f := s.clk.setMhz
      still t ∧ t.clk.setMhz = (if f < k.target then min k.target (f + 25) else max k.target (f - 25)) ∧
      t.clk.shownMhz = BitVec.ofNat 12 t.clk.setMhz ∧ t.clk.tb = s.clk.tb ∧ t.clk.cycle = s.clk.cycle ∧
      (if t.clk.setMhz = k.target then t.clk.change = none ∧ t.clk.endedAt = some s.ns
       else t.clk.change = some { k with started := true, nextStep := k.nextStep + 16 } ∧ t.clk.endedAt = s.clk.endedAt)
    (∀ k, s.clk.change = some k →
      (k.started = false → k.settled = false → s.clk.cycle.toNat + 1024 = k.n →
        exec (.railSettleCheck false) s = .next { s with clk := { s.clk with change := some { k with n := k.n + 8192, nextStep := k.n + 8192 } } } ∧
        Completes (.railSettleCheck true) s (fun t => still t ∧ t.clk = { s.clk with change := some { k with settled := true } } ∧ t.ev = s.ev ∧
          t.pow.rails = if s.pow.rails[(0 : Fin 8)] = 0 then s.pow.rails else s.pow.rails.set 0 (coreVolts k.target))) ∧
      (∀ ok, s.clk.cycle.toNat + 1024 ≠ k.n → exec (.railSettleCheck ok) s = .next s) ∧
      (k.n ≠ s.clk.cycle.toNat → exec .freqChangeStart s = .next s) ∧ (k.nextStep ≠ s.clk.cycle.toNat → exec .freqRampStep s = .next s) ∧
      (k.started = false → k.settled = true → k.n = s.clk.cycle.toNat → s.clk.running = true → Completes .freqChangeStart s (fun t => stepped k t ∧
        t.clk.target = BitVec.ofNat 12 k.target ∧ t.ev = (s.event 0x401 1 none none (leBytes 8 k.n ++ leBytes 2 k.old ++ leBytes 2 k.target ++ leBytes 4 0 ++ leBytes 8 s.clk.sample.toNat)).ev)) ∧
      (k.started = true → k.nextStep = s.clk.cycle.toNat → s.clk.running = true → Completes .freqRampStep s (fun t => stepped k t ∧ t.ev = s.ev))) ∧
    (∀ target ended, s.clk.deferred = some target → s.clk.endedAt = some ended → s.clk.change = none → ended + 50000 ≤ s.ns → target ≠ s.clk.setMhz →
      exec .changeSpacingEnd s = .next { s with clk := { s.clk with
        deferred := none
        change := some { n := s.clk.cycle.toNat + 8192, target := target, old := s.clk.setMhz, settled := decide (target ≤ s.clk.setMhz), started := false, nextStep := s.clk.cycle.toNat + 8192 } } }) ∧
    (s.pow.state = .on → s.clk.tb.toNat % 1000000 = 0 → s.pow.adjAt = some s.clk.tb.toNat → exec .envelopeAdjust s = .next s) ∧
    (s.pow.state = .on → s.clk.tb.toNat % 1000000 = 0 → s.pow.adjAt ≠ some s.clk.tb.toNat → s.pow.aboveClass < 99 → Completes .envelopeAdjust s (fun t => still t ∧
      t.pow.pAdj = BitVec.ofNat 16 (if s.pow.samples = 0 then 0 else s.pow.powerSum / (s.pow.samples * 1000000)) ∧
      t.pow.lAdj = BitVec.ofNat 16 (s.envelope.1 / s.envelope.2) ∧ t.pow.powerSum = 0 ∧ t.pow.samples = 0 ∧
      -100 ≤ t.pow.k.toInt ∧ t.pow.k.toInt ≤ 8 ∧ (sensorReach s.pow.temps throttlePoints 0 = true → t.pow.k.toInt = -4) ∧
      (s.clk.setMhz = s.asz.floor → s.envelope.1 * s.pow.mean.2 < s.pow.mean.1 * s.envelope.2 → t.pow.overP = true ∧ t.pow.thermAlert = true) ∧
      (s.clk.shownMhz = 0 → t.clk = s.clk) ∧
      (∀ k, s.clk.change = none → t.clk.change = some k → k.started = false ∧ k.old = s.clk.setMhz ∧ k.n = s.clk.cycle.toNat + 8192 ∧
        s.asz.floor ≤ k.target) ∧
      t.clk.setMhz = s.clk.setMhz ∧ t.clk.tb = s.clk.tb)) ∧
    (s.pow.state = .on → s.clk.tb.toNat % 1000000 = 0 → s.pow.adjAt ≠ some s.clk.tb.toNat → 99 ≤ s.pow.aboveClass → s.fab.d2dTraining = false →
      classEnvelope s.pow.cls.toNat * s.pow.mean.2 < s.pow.mean.1 → Completes .envelopeAdjust s (fun t => t.pow.aboveClass = 0 ∧ t.mem = s.mem ∧
        (∀ p, (t.part p).pstate = if (s.part p).pstate = .running ∧ (s.part p).inrst = false then .stopped else (s.part p).pstate) ∧
        t.ev.undurable.getLast? = some { detected := s.clk.tb.toNat, sev := 6, part := none })) ∧
    (∀ temps, s.mgrUp = true → let shown := { temps with hbm := Vector.ofFn (fun k : Fin 6 => if s.grade.fitted k.val then temps.hbm[k] else 0) }
      (((sensorList shown).zip criticalPoints).all (fun e => decide (e.1 < e.2)) = true → Completes (.tempSample temps) s (fun t => still t ∧ t.clk = s.clk ∧ t.sec = s.sec ∧
        t.pow.temps = shown ∧ t.pow.state = s.pow.state ∧
        (sensorReach shown alertPoints 0 = true → t.pow.thermAlert = true) ∧
        (s.pow.overP = false → sensorReach shown alertPoints 4 = false → t.pow.thermAlert = false) ∧
        (∀ k : Fin 6, t.hbm[k] = { s.hbm[k] with hot := decide (85 < shown.hbm[k].toNat) }))) ∧
      (∀ j, s.pow.thermCrit = false → ((sensorList shown).zip criticalPoints).findIdx? (fun e => decide (e.2 ≤ e.1)) = some j →
        Completes (.tempSample temps) s (fun t => t.pow.state = .standby ∧ t.pow.thermCrit = true ∧ t.mem = [] ∧ (∀ p, (t.part p).pstate = .empty) ∧
          t.sec.cause = 7 ∧ t.ev = { (s.event 0x403 6 none none [4, BitVec.ofNat 8 j]).ev with rdSeq := 0, latched := none }))) ∧
    (∀ lowest : BitVec 10, s.clk.running = true → lowest.toNat ≤ 1004 → exec (.droopResponse lowest) s = .next { s with clk := { s.clk with
      excur := satAdd s.clk.excur 1, lowest := if lowest < s.clk.lowest then lowest else s.clk.lowest } }) ∧
    (s.pow.state = .on → s.clk.running = true → Completes .coreUv s (fun t =>
      t.sec.phase = .warm ∧ t.sec.cause = 4 ∧ t.sec.ready = false ∧ t.clk.running = false ∧ t.mem = [] ∧ (∀ p, (t.part p).pstate = .empty) ∧
      t.clk.tb = s.clk.tb ∧ t.pow = { s.pow with rails := t.pow.rails } ∧ ∃ d ∈ t.ev.undurable, d.detected = s.clk.tb.toNat ∧ d.sev = 6)) ∧
    (s.mgrUp = true →
      Completes .refclkOutOfTolerance s (fun t => t = { s with clk := { s.clk with refBad := true }, justSet := .refBad :: s.justSet, ev := t.ev } ∧ t.ev = (s.event 0x40A 4 none none []).ev) ∧
      (s.clk.refLost = false → Completes .refclkLoss s (fun t => t.mem = s.mem ∧ t.parts = s.parts ∧ (∀ c, (t.core c).ctl = (s.core c).ctl ∧ (t.core c).vec = (s.core c).vec) ∧ t.clk = { s.clk with refLoss := true, refLost := true } ∧ t.host.linkUp = false ∧
        (∀ n : PortId, s.fab.ports[n].inUse = true → t.fab.ports[n].up = false ∧ t.fab.ports[n].epoch = s.fab.ports[n].epoch + 1) ∧
        ∃ d ∈ t.ev.undurable, d.detected = s.clk.tb.toNat ∧ d.sev = 6)) ∧
      (exec (.stretchedCycle true) s = .next { s with clk := { s.clk with stretchNet := satAdd s.clk.stretchNet 1 } } ∧
       exec (.stretchedCycle false) s = .next { s with clk := { s.clk with stretchMgr := satAdd s.clk.stretchMgr 1 } }) ∧
      (∀ off, s.secured true = true → (s.pow.state = .on ∨ s.pow.cls ≠ 3) → off % 256 = 0 → off < 4096 →
        Completes (.calRead { sec := true, off := off }) s (fun t => t = { s with out := t.out } ∧
          ∃ data, t.out = s.out ++ [.mgmt true data] ∧ data.length = 256 ∧ ∀ i, i < 256 → data[i]? = some (let j := off + i
            if j < 4 then s.pow.cal.magic.extractLsb' (8 * j) 8 else if j = 4 then BitVec.ofNat 8 s.pow.cal.user.toNat
            else if j < 8 then s.pow.cal.crc.extractLsb' (8 * (j - 4)) 8 else (s.pow.cal.body.lookup j).getD 0))) ∧
      (∀ off, exec (.calRead { sec := false, off := off }) s = .next { s with out := s.out ++ [.mgmt false []] }) ∧
      (∀ piece : CalPiece,
        let opened := s.secured true = true ∧ (s.sec.lcs = 1 ∨ s.sec.lcs = 2) ∧ s.sec.aik = true ∧ (∀ p, (s.part p).pstate ≠ .running) ∧
          piece.off % 256 = 0 ∧ piece.off < 4096 ∧ piece.bytes.length = 256
        let come := fun i : Nat => if 256 * i = piece.off then some piece.bytes else s.sec.calParts.lookup (256 * i)
        let whole := (List.range 16).flatMap (fun i => (come i).getD [])
        let set := calOf whole
        (opened → (∃ i, i < 16 ∧ come i = none) → Completes (.calWrite true piece) s (fun t =>
          t = { s with sec := { s.sec with calParts := t.sec.calParts }, out := s.out ++ [.mgmt true []] } ∧ ∀ i, i < 16 → t.sec.calParts.lookup (256 * i) = come i)) ∧
        (opened → (∀ i, i < 16 → come i ≠ none) → set.magicOk = true → set.crcOk = true → Completes (.calWrite true piece) s (fun t => still t ∧ t.clk = s.clk ∧
          t.sec = { s.sec with calParts := [] } ∧ t.pow = { s.pow with cal := { set with user := true } } ∧ t.out = s.out ++ [.mgmt true []] ∧
          t.ev = (s.event 0x409 4 none none (leBytes 4 set.crc.toNat)).ev)) ∧
        (opened → (∀ i, i < 16 → come i ≠ none) → (set.magicOk = false ∨ set.crcOk = false) →
          exec (.calWrite true piece) s = .next { s with sec := { s.sec with calParts := [] }, out := s.out ++ [.mgmt false []] }) ∧
        (¬ opened → exec (.calWrite true piece) s = .next { s with out := s.out ++ [.mgmt false []] }))) ∧
    (s.clk.refLost = true → exec .refclkReturn s = .next { s with
      clk := { s.clk with refLost := false }
      host := { s.host with linkUp := decide (s.pow.state = .on ∧ (s.sec.tap.toNat < 3 ∨ s.sec.lcs = 3)) } })

/-! ## Records, resets, life cycle and management -/

/-- EVR_READ is refused outside a secured session; within one it answers FOUND, the SEQ in 6 bytes and the 256 bytes of the stored record with the smallest SEQ at or above the one it names, or zeros where none qualifies, and changes nothing, the latch included. Rests on 17 R394, R395; the layout of the answer is log 41 (DESIGN CHOICE), the secured session an operand and the session keys log 42 (DEDUCED). -/
def Obligations.EvrReadAnswersTheSelectedRecord : Prop :=
  ∀ (s : State) (seq : BitVec 48), s.mgrUp = true →
    (∀ sec, (sec = false ∨ s.sec.sessionKeys = false ∨ s.sec.bootFail = true) →
      exec (.evrRead sec seq) s = .next { s with out := s.out ++ [.mgmt false []] }) ∧
    (s.sec.sessionKeys = true → s.sec.bootFail = false → ∃ found nr slot,
      exec (.evrRead true seq) s = .next { s with out := s.out ++ [.mgmt true (leBytes 1 found ++ leBytes 6 nr ++ slot)] } ∧
      slot.length = 256 ∧
      ((found = 1 ∧ ∃ r ∈ s.ev.store, nr = r.seq.toNat ∧ slot = r.slot ∧ seq.toNat ≤ r.seq.toNat ∧
          ∀ x ∈ s.ev.store, seq.toNat ≤ x.seq.toNat → r.seq.toNat ≤ x.seq.toNat) ∨
       (found = 0 ∧ nr = 0 ∧ slot = List.replicate 256 0 ∧ ∀ x ∈ s.ev.store, x.seq.toNat < seq.toNat)))

/-- Record, replay and the event recorder. MGR_RR_CTL selects the mode of a partition, clearing what the mode clears, and is refused with a record while that partition, or the selected one, runs or stands halted; the oldest staged record goes to the region while it fits, its bytes to the next place of the region in HBM, and stops the recording incomplete when not; 10 us after its detection an occurrence is durable and raises its vectors; at a multiple of 1,000,000 ns each corrected-error count becomes the last compared, with one record of the increases if any; a clear of the form that R396 gives, with a token of this device and session that the part's keys admit, leaves the store with its own record only; another one is refused with a record. Rests on 12 R300, R303; 17 R385, R387, R396, R397. The address 0x40100 and the refusal by the selected partition are log 36, the place of a staged record log 61 (DEDUCED), the token's fields log 42 (DESIGN CHOICE). -/
def Obligations.RecordsAreKeptAndCleared : Prop :=
  ∀ s : State,
    (∀ req p, s.reaches req = true → s.rrBusy p = false →
      exec (.rrModeOff req p) s = .next { s with rr := { s.rr with part := p, mode := 0 } } ∧
      (s.rr.rrCnt ≠ 0 →
        Completes (.rrModeRecord req p) s (fun t => t = { s with rr := t.rr } ∧ t.rr.part = p ∧ t.rr.mode = 1 ∧ t.rr.lost = 0 ∧
          t.rr.incomplete = false ∧ t.rr.diverged = false ∧ t.rr.bytes = 0 ∧ t.rr.region = [] ∧ t.rr.staged = [] ∧
          t.rr.rrCnt = s.rr.rrCnt ∧ t.rr.rrBase = s.rr.rrBase ∧ t.rr.div = s.rr.div) ∧
        exec (.rrModeReplay req p) s = .next { s with rr := { s.rr with part := p, mode := 2, diverged := false, div := 0 } })) ∧
    (∀ req p, s.reaches req = true → s.rrBusy p = true → ∀ i ∈ [Instr.rrModeOff req p, .rrModeRecord req p, .rrModeReplay req p],
      Completes i s (fun t => t = { s with ev := t.ev, out := t.out } ∧
        t.ev = (s.event 0x103 3 (some p) none (leBytes 8 0x40100 ++ leBytes 1 (match req with | .host => 0 | .fabric => 1 | .mctp => 2))).ev ∧
        t.out = s.out ++ [match req with | .host => .advisoryError | .fabric => .commandError | .mctp => .mgmt false []])) ∧
    (∀ r rest, s.rr.staged = r :: rest →
      (s.rr.bytes.toNat + r.length ≤ s.rr.rrCnt.toNat * s.grade.bandBytes → Completes .recordStagingWrite s (fun t => t.rr = { s.rr with
          staged := rest, region := s.rr.region ++ [r], bytes := s.rr.bytes + BitVec.ofNat 38 r.length } ∧ t.mem = s.mem ∧ t.ev = s.ev ∧ t.parts = s.parts ∧
        let a := hbmBase + s.rr.rrBase.toNat * s.grade.bandBytes + s.rr.bytes.toNat
        ∀ i (h : i < r.length), (lineBytes (t.lineNow ((a + i) / 64 * 64)))[(a + i) % 64]? = some r[i])) ∧
      (s.rr.rrCnt.toNat * s.grade.bandBytes < s.rr.bytes.toNat + r.length → Completes .recordStagingWrite s (fun t =>
        t = { s with rr := t.rr, ev := t.ev } ∧ t.rr.staged = [] ∧ t.rr.stopped = true ∧ t.rr.incomplete = true ∧
        t.rr.region = s.rr.region ∧ t.rr.bytes = s.rr.bytes ∧ t.rr.lost.toNat = min (s.rr.lost.toNat + rest.length + 1) (2 ^ 24 - 1)))) ∧
    (∀ d rest, s.ev.undurable = d :: rest → d.detected + 10000 ≤ s.ns → (∀ p, (s.part p).rstAsked = false) →
      Completes .eventRecordDurable s (fun t => t = { s with ev := { s.ev with undurable := rest }, host := t.host, out := t.out } ∧
        t.host = { s.host with msixPend := t.host.msixPend } ∧
        let told := fun v => (bit s.host.masked v = true ∧ bit t.host.msixPend v = true) ∨
          (bit s.host.masked v = false ∧ ∃ new, t.out = s.out ++ new ∧ .msix v ∈ new)
        (5 ≤ d.sev.val → told 8) ∧ (∀ p, d.part = some p → (∀ x ∈ rest, x.part ≠ some p) → told p.val))) ∧
    (s.clk.tb.toNat % 1000000 = 0 →
      let slice := fun c : CoreId => increase (s.core c).cfg.ce (s.core c).cfg.lastCe
      let tile := fun c : CoreId => increase (s.core c).cfg.tileCe (s.core c).cfg.lastTileCe
      let stack := fun k : Fin 6 => increase s.hbm[k].ce s.hbm[k].lastCe
      Completes .ceSummaryCheck s (fun t => t = { s with cores := t.cores, hbm := t.hbm, ev := t.ev } ∧
        (∀ c, t.core c = { s.core c with cfg := { (s.core c).cfg with lastCe := (s.core c).cfg.ce, lastTileCe := (s.core c).cfg.tileCe } }) ∧
        (∀ k : Fin 6, t.hbm[k] = { s.hbm[k] with lastCe := s.hbm[k].ce }) ∧
        ((∀ c, slice c = 0 ∧ tile c = 0) → (∀ k, stack k = 0) → t.ev = s.ev) ∧
        (((∃ c, slice c ≠ 0 ∨ tile c ≠ 0) ∨ ∃ k, stack k ≠ 0) → t.ev = (s.event 0x203 0 none none
          (leBytes 8 ((allCores.filter (fun c => slice c + tile c ≠ 0)).map (fun c => 2 ^ c.val)).sum ++
            leBytes 8 (allCores.map slice).sum ++ leBytes 8 (allCores.map tile).sum ++
            leBytes 4 (stack 0) ++ leBytes 4 (stack 1) ++ leBytes 4 (stack 2) ++ leBytes 4 (stack 3) ++ leBytes 4 (stack 4) ++ leBytes 4 (stack 5))).ev))) ∧
    (s.mgrUp = true → s.secured true = true →
      ∀ (payload : List Byte) (token : Token),
      let formed := 4 < payload.length ∧ payload.take 2 = [0, 0] ∧ leNat ((payload.drop 2).take 2) + 4 = payload.length
      let admitted := token.verifies = true ∧ token.device = s.sec.device ∧ token.nonce = s.sec.nonce ∧
        (token.key = .root ∨ token.key = .assize ∧ s.keyReadable = true)
      (formed → admitted → Completes (.evrClear true payload token) s (fun t => t = { s with ev := t.ev, out := s.out ++ [.mgmt true []] } ∧
        t.ev.lost = .replicate 8 0 ∧ ∃ r, t.ev.store = [r] ∧ r.type = 0x701 ∧ r.sev = 7 ∧ r.seq = s.ev.nextSeq)) ∧
      (¬ formed → exec (.evrClear true payload token) s = .next { s with
        ev := (s.event 0x702 4 none none [1]).ev, out := s.out ++ [.mgmt false []] }) ∧
      (formed → ¬ admitted → exec (.evrClear true payload token) s = .next { s with
        ev := (s.event 0x702 4 none none [0]).ev, out := s.out ++ [.mgmt false []] }))

/-- Commanded resets and the life cycle. A warm reset by MGR_RST, MCTP or an accepted transition empties memory and every partition, stops the oscillator and records its cause; a cold one powers down and waits; a partition reset stops its partitions, zeroes their storage and resets their cores, or waits while the die-to-die link trains; each ends as its own command says. An accepted transition makes the keys of its row, one the command may not make, or that finds BUSY, is refused with a record and changes no state of the life cycle. Rests on 16 R366-R376; 17 R386. Storage that holds zeros from the start of a partition reset on is log 29, the order of the refusals log 40 (DEDUCED), the secured session and the token's fields log 42. -/
def Obligations.ResetsAndTransitionsTakeEffect : Prop :=
  ∀ s : State,
    let warm := fun (cause : BitVec 4) (t : State) =>
      t.sec.phase = .warm ∧ t.sec.ready = false ∧ t.sec.cause = cause ∧ t.mem = [] ∧ (∀ p, (t.part p).pstate = .empty) ∧
      t.clk.running = false ∧ t.clk.tb = s.clk.tb ∧ t.asz.busy = true ∧ t.asz.loaded = none ∧ t.pow = { s.pow with rails := t.pow.rails } ∧ t.host.sessions = []
    let keys := fun (t : State) => t.sec.lcs = s.sec.lcs ∧ t.sec.reprov = s.sec.reprov ∧ t.sec.aik = s.sec.aik ∧
      t.sec.storageKey = s.sec.storageKey ∧ t.sec.sessionKeys = s.sec.sessionKeys ∧ t.sec.policy = s.sec.policy
    let cold := fun (t : State) =>
      t.pow.state = .coldWait ∧ t.pow.downAt = s.ns ∧ t.pow.pwrGood = false ∧ t.sec.cause = 2 ∧ t.sec.ready = false ∧ t.mem = [] ∧
      (∀ p, (t.part p).pstate = .empty) ∧ t.clk.running = false ∧ t.host.linkUp = false ∧ ∀ r : Fin 8, t.pow.rails[r] = 0
    let partial_ := fun (pmask : BitVec 8) (t : State) =>
      (∀ p, s.fab.d2dTraining = true → bit pmask p.val = true → (s.part p).inrst = false → (s.part p).pstate ≠ .empty →
        t.part p = { s.part p with rstAsked := true }) ∧
      (∀ p, s.fab.d2dTraining = false → bit pmask p.val = true → (s.part p).inrst = false → (s.part p).pstate ≠ .empty → s.haltDurable p = true →
        (t.part p).inrst = true ∧ (t.part p).pstate = .stopped ∧ (t.part p).release = none ∧
        (∀ x ∈ s.storageOf p, ∀ a, x.1 ≤ a → a < x.1 + x.2 → memRead t.mem a = 0) ∧
        ∀ c, s.partOf c = some p → (t.core c).ctl = .reset ∧ (t.core c).vec = .reset ∧ (t.core c).halt = Core.reset.halt ∧
          (t.core c).syn.s = .replicate 48 0 ∧ (t.core c).cfg.region = (s.core c).cfg.region) ∧
      (∀ p, bit pmask p.val = false → (t.part p).inrst = (s.part p).inrst ∧ (t.part p).pstate = (s.part p).pstate) ∧
      t.pow = s.pow ∧ t.clk = s.clk
    let told := fun (t : State) => Output.mgmt true [] ∈ t.out
    (s.hostUp = true → s.sec.phase = .ready → s.pow.state = .on → Completes (.mgrRstWarm 0xA5A55A5A) s (fun t => warm 3 t ∧ keys t)) ∧
    (s.hostUp = true → Completes (.mgrRstCold 0xA5A55A5A) s cold) ∧
    (s.hostUp = true → s.sec.phase = .ready → ∀ pmask, Completes (.mgrRstPartition 0xA5A55A5A pmask) s (partial_ pmask)) ∧
    (s.hostUp = true → ∀ key pmask, key ≠ 0xA5A55A5A → ∀ i ∈ [Instr.mgrRstWarm key, .mgrRstCold key, .mgrRstPartition key pmask],
      exec i s = .next { s with out := s.out ++ [.advisoryError] }) ∧
    (s.mgrUp = true → s.secured true = true →
      Completes (.mctpResetCold true) s (fun t => cold t ∧ told t) ∧
      (s.sec.phase = .ready → s.pow.state = .on → Completes (.mctpResetWarm true) s (fun t => warm 3 t ∧ keys t ∧ told t) ∧
        ∀ pmask, Completes (.mctpResetPartition true pmask) s (fun t => partial_ pmask t ∧ told t))) ∧
    (s.mgrUp = true → ∀ pmask, ∀ i ∈ [Instr.mctpResetCold false, .mctpResetWarm false, .mctpResetPartition false pmask],
      exec i s = .next { s with out := s.out ++ [.mgmt false []] }) ∧
    (∀ p, (s.part p).inrst = true → Completes (.partitionWipeDone p) s (fun t =>
      t = { s with mem := t.mem, wbuf := t.wbuf, cores := t.cores, parts := (s.modPart p (fun q => { q with inrst := false, pstate := .stopped })).parts } ∧
      (∀ c, t.core c = { s.core c with cfg := { (s.core c).cfg with poison := (t.core c).cfg.poison, scrubBack := (t.core c).cfg.scrubBack } }) ∧
      (∀ x ∈ s.storageOf p, ∀ a, x.1 ≤ a → a < x.1 + x.2 → memRead t.mem a = 0) ∧
      ∀ a, (∀ x ∈ s.storageOf p, a < x.1 ∨ x.1 + x.2 ≤ a) → memRead t.mem a = memRead s.mem a)) ∧
    (s.sec.phase = .warm → s.sec.alignFail = false →
      Completes (.warmResetReady none) s (fun t => t.sec = { s.sec with phase := .ready, ready := true, wipe := false } ∧ t.asz = { s.asz with busy := false } ∧
        t.clk = { s.clk with running := true } ∧ t.mem = [] ∧ t.cores = s.cores ∧ t.parts = s.parts ∧ t.pow = s.pow) ∧
      ∀ f, Completes (.warmResetReady (some f)) s (fun t => t = { s with sec := { s.sec with alignFail := true }, ev := t.ev } ∧
        t.ev = (s.event 0x104 6 none none (leBytes 2 f.core.val ++ leBytes 1 f.side.val)).ev)) ∧
    (s.mgrUp = true → s.secured true = true →
      let signed := fun token : Token => token.verifies = true ∧ token.device = s.sec.device ∧ token.nonce = s.sec.nonce
      let changed := fun (t : State) => warm 6 t ∧ told t ∧ ∃ d ∈ t.ev.undurable, d.detected = s.clk.tb.toNat ∧ d.sev = 5
      (s.asz.busy = false → s.sec.phase = .ready → s.pow.state = .on →
        (∀ token record, signed token → token.key = .root → (s.sec.lcs = 0 ∨ s.sec.lcs = 3 ∧ s.sec.reprov.toNat < 3) →
          Completes (.lcProvision true token record) s (fun t => changed t ∧
            t.sec.lcs = 1 ∧ t.sec.aik = true ∧ t.sec.storageKey = true ∧ t.sec.verifyKey = true ∧ t.sec.assizeKey = record.key ∧ t.sec.policy = record.policy ∧
            t.sec.reprov = if s.sec.lcs = 3 then s.sec.reprov + 1 else s.sec.reprov)) ∧
        (∀ token, signed token → token.key = .assize → s.keyReadable = true → s.sec.lcs = 1 → s.sec.aik = true →
          Completes (.lcDeploy true token) s (fun t => changed t ∧ t.sec.lcs = 2 ∧ t.sec.aik = true ∧
            t.sec.storageKey = s.sec.storageKey ∧ t.sec.policy = s.sec.policy ∧ t.sec.reprov = s.sec.reprov)) ∧
        (∀ token, signed token → (token.key = .root ∨ token.key = .assize ∧ s.keyReadable = true) → (s.sec.lcs = 1 ∨ s.sec.lcs = 2) →
          Completes (.lcReturn true token) s (fun t => changed t ∧ t.sec.lcs = 3 ∧ t.sec.aik = false ∧
            t.sec.storageKey = false ∧ t.sec.sessionKeys = false ∧ t.sec.reprov = s.sec.reprov))) ∧
      (∀ token record, let good := signed token ∧ token.key = .assize ∧ s.keyReadable = true
        ∀ code reason, ∀ i : Instr,
          ((i = .lcProvision true token record ∧ code = 3 ∧ reason = 0 ∧ (¬ signed token ∨ token.key ≠ .root ∨ s.sec.lcs = 1 ∨ s.sec.lcs = 2)) ∨
           (i = .lcDeploy true token ∧ code = 4 ∧ reason = 0 ∧ (¬ good ∨ s.sec.lcs ≠ 1)) ∨
           (i = .lcReturn true token ∧ code = 5 ∧ reason = 0 ∧ (¬ signed token ∨ token.key = .unknown ∨ s.sec.lcs = 0 ∨ s.sec.lcs = 3)) ∨
           (i = .lcDeploy true token ∧ code = 4 ∧ reason = 1 ∧ good ∧ s.sec.lcs = 1 ∧ s.asz.busy = true) ∨
           (i = .lcDeploy true token ∧ code = 4 ∧ reason = 2 ∧ good ∧ s.sec.lcs = 1 ∧ s.asz.busy = false ∧ s.sec.aik = false)) →
        Completes i s (fun t => t = { s with ev := t.ev, out := s.out ++ [.mgmt false []] } ∧
          t.ev = (s.event 0x601 4 none none [BitVec.ofNat 8 code, BitVec.ofNat 8 reason]).ev)))

/-- The alarm's triggers, the TAP and management. An open lid loop that was armed, a glitch and private TAP access outside RETURNED set their trigger, erase the keys the policy names, stop every partition and start a warm reset; a TAP instruction that drives the pins stops every partition, once the die-to-die link carries the stops, and drops the host link, another leaves the partitions and gives the link back; a closing loop clears TAMPER. An accepted firmware image waits for the next cold reset; sensors, discovery, certificate, challenge, measurements and a completed key exchange are answered; IDE keys are installed in a secured session, and give a stopped stream back. A private instruction is loaded in RETURNED. Rests on 15 R340, R364, R365; 16 R378-R383. An alarm while the part boots is log 31, the layouts of answers log 41, the secured session log 42, the links under a TAP instruction log 43, private access log 73. -/
def Obligations.TriggersAndManagementAct : Prop :=
  ∀ s : State, s.mgrUp = true →
    let alarmed := fun (k : Nat) (t : State) =>
      (∀ p, (t.part p).live = false) ∧ bit t.sec.trig k = true ∧ (∀ j, j ≠ k → bit t.sec.trig j = bit s.sec.trig j) ∧
      t.sec.lcs = s.sec.lcs ∧ (s.sec.alarms.toNat < 65535 → t.sec.alarms = s.sec.alarms + 1) ∧
      (let e := s.sec.policy.extractLsb' (3 * k) 3
       t.sec.sessionKeys = (s.sec.sessionKeys && !bit e 0) ∧
       (bit e 0 = true → t.sec.ide = 0 ∧ t.sec.ideStopped = s.sec.ideStopped ||| s.sec.ide) ∧
       ((s.sec.lcs = 1 ∨ s.sec.lcs = 2) → t.sec.storageKey = (s.sec.storageKey && !bit e 1) ∧ t.sec.aik = (s.sec.aik && !bit e 2)) ∧
       ((s.sec.lcs = 0 ∨ s.sec.lcs = 3) → t.sec.storageKey = s.sec.storageKey ∧ t.sec.aik = s.sec.aik)) ∧
      (∃ d ∈ t.ev.undurable, d.detected = s.clk.tb.toNat ∧ d.sev = 7) ∧
      (s.sec.phase = .ready → s.pow.state = .on → t.sec.phase = .warm ∧ t.sec.cause = 5 ∧ t.sec.wipe = true ∧ t.mem = []) ∧
      (s.sec.phase ≠ .ready → t.sec.phase = s.sec.phase ∧ t.mem = s.mem)
    let answers := fun (i : Instr) (P : List Byte → Prop) => ∃ data, exec i s = .next { s with out := s.out ++ [.mgmt true data] } ∧ P data
    (s.sec.tamperOpen = false → s.sec.tamperArmed = true → Completes .tamperOpen s (fun t => alarmed 0 t ∧ t.sec.tamperOpen = true ∧ t.sec.tamperArmed = false)) ∧
    (∀ t0, s.sec.tamperOpen = false → s.sec.tamperArmed = false → s.sec.tamperClosedAt = some t0 → s.ns < t0 + 1000000 →
      exec .tamperOpen s = .next { s with sec := { s.sec with tamperOpen := true, tamperClosedAt := none } }) ∧
    (s.sec.tamperOpen = true → exec .tamperLoopClose s = .next { s with sec := { s.sec with tamperOpen := false, tamperClosedAt := some s.ns } }) ∧
    Completes .glitch s (alarmed 1) ∧
    (s.sec.lcs ≠ 3 → s.sec.tap.toNat < 3 → Completes .tapPrivate s (fun t => alarmed 2 t ∧ t.sec.tap = 0)) ∧
    (s.sec.lcs = 3 → s.sec.tap.toNat < 3 → exec .tapPrivate s = .next { s with sec := { s.sec with tap := 6 } }) ∧
    (∀ i n, (i, n) ∈ [(Instr.tapBypass, 0#3), (.tapIdcode, 1), (.tapSamplePreload, 2)] → (s.sec.tap.toNat < 3 ∨ 5 < s.sec.tap.toNat) →
      exec i s = .next { s with sec := { s.sec with tap := n } }) ∧
    (∀ i n, (i, n) ∈ [(Instr.tapBypass, 0#3), (.tapIdcode, 1), (.tapSamplePreload, 2)] → 3 ≤ s.sec.tap.toNat → s.sec.tap.toNat ≤ 5 →
      exec i s = .next { s with
        sec := { s.sec with tap := n }
        host := { s.host with linkUp := decide (s.pow.state = .on) && !s.clk.refLost } }) ∧
    (∀ i n, (i, n) ∈ [(Instr.tapExtest, 3#3), (.tapClamp, 4), (.tapHighz, 5)] →
      (s.sec.lcs = 3 → exec i s = .next { s with sec := { s.sec with tap := n } }) ∧
      (s.sec.lcs ≠ 3 → Completes i s (fun t => t.sec = { s.sec with tap := n } ∧ (s.fab.d2dTraining = false → ∀ p, (t.part p).live = false) ∧
        (s.fab.d2dTraining = true → ∀ p, t.part p = { s.part p with stopAsked := true, release := none }) ∧ t.host.linkUp = false ∧
        (∀ k : PortId, t.fab.ports[k].up = false ∧ t.fab.ports[k].epoch = s.fab.ports[k].epoch) ∧ t.mem = s.mem ∧ t.pow = s.pow))) ∧
    (∀ fw, s.sec.takes fw = true → exec (.pldmFirmwareUpdate fw) s = .next { s with
      sec := { s.sec with fwPending := some fw }, out := s.out ++ [.mgmt true []] }) ∧
    (∀ fw : FirmwareImage, (fw.verified = false ∨ s.sec.lcs = 2 ∧ (fw.evaluation = true ∨ fw.version.toNat < s.sec.fwMin.toNat)) →
      exec (.pldmFirmwareUpdate fw) s = .next { s with out := s.out ++ [.mgmt false []] }) ∧
    (s.sec.bootFail = false →
      answers .pldmSensorRead (fun data => data.length = 72 ∧ leNat (data.take 8) = s.pow.stat ∧ leNat ((data.drop 32).take 8) = s.pow.temps.stage.toNat) ∧
      answers .pldmDiscovery (fun data => data = [0, 2, 5]) ∧
      answers .spdmGetCertificate (fun data => data = [if s.sec.aik = true ∧ (s.sec.lcs = 1 ∨ s.sec.lcs = 2) then 1 else 0]) ∧
      (∀ nonce, Completes (.spdmChallenge nonce) s (fun t => t = { s with fresh := s.fresh + 1, out := t.out } ∧
        ∃ data, t.out = s.out ++ [.mgmt true data] ∧ (data.drop 1).take 32 = leBytes 32 nonce.toNat)) ∧
      (∀ nonce, Completes (.spdmGetMeasurements nonce) s (fun t => t = { s with fresh := t.fresh, out := t.out } ∧
        ∃ data, t.out = s.out ++ [.mgmt true data] ∧ (data.drop 1).take 32 = leBytes 32 nonce.toNat ∧
          (data.drop 49).take 8 = leBytes 8 s.asz.digest.toNat)) ∧
      (∀ nonce, exec (.spdmKeyExchange (some nonce)) s = .next { s with
        sec := { s.sec with sessionKeys := true, nonce := nonce, calParts := [] }, out := s.out ++ [.mgmt true []] }) ∧
      (∀ stream : Fin 5, s.sec.sessionKeys = true → Completes (.ideKm true stream) s (fun t => t = { s with sec := { s.sec with ide := t.sec.ide, ideStopped := t.sec.ideStopped }, out := s.out ++ [.mgmt true []] } ∧
        ∀ j, j < 5 → bit t.sec.ide j = (bit s.sec.ide j || j == stream.val) ∧ bit t.sec.ideStopped j = (bit s.sec.ideStopped j && j != stream.val)))) ∧
    exec (.spdmKeyExchange none) s = .next { s with out := s.out ++ [.mgmt false []] } ∧
    (∀ stream, exec (.ideKm false stream) s = .next { s with out := s.out ++ [.mgmt false []] })
end

