-- ==== Sys2Proof/Laws/Memory.lean ====
section
/-! SUPPORT. Laws of device memory: every operation keeps the canonical form; what a read finds after a write or a wipe. -/

namespace Sys2Proof.Machine

/-- The canonical form of a list with an entry in front. -/
theorem memWf_cons {k : Nat} {b : Byte} {m : List Host.Cell} :
    memWf ((k, b) :: m) = true ↔ (∀ e ∈ m, k < e.1) ∧ b ≠ 0 ∧ memWf m = true := by
  simp only [memWf, List.map_cons, List.pairwise_cons, List.mem_map, forall_exists_index, and_imp, forall_apply_eq_imp_iff₂,
    List.all_cons, Bool.and_eq_true, decide_eq_true_eq, bne_iff_ne, ne_eq]
  tauto

/-- The keys of a memory after a write: its own, and the address written. -/
theorem mem_memWrite {m : List Host.Cell} {a : Nat} {b : Byte} {e : Host.Cell} (h : e ∈ memWrite m a b) : e ∈ m ∨ e.1 = a := by
  induction m with
  | nil =>
    simp only [memWrite] at h
    split at h <;> simp_all
  | cons x m ih =>
    obtain ⟨k, c⟩ := x
    simp only [memWrite] at h
    split at h
    · split at h <;> simp_all
      aesop
    · split at h
      · split at h <;> simp_all
        aesop
      · rcases List.mem_cons.1 h with h | h
        · exact .inl (by simp [h])
        · rcases ih h with h | h
          · exact .inl (List.mem_cons_of_mem _ h)
          · exact .inr h

/-- Writing a byte keeps the canonical form. -/
theorem memWrite_wf {m : List Host.Cell} {a : Nat} {b : Byte} (h : memWf m = true) : memWf (memWrite m a b) = true := by
  induction m with
  | nil =>
    simp only [memWrite]
    split
    · rfl
    · rename_i hb
      simpa [memWf] using hb
  | cons x m ih =>
    obtain ⟨k, c⟩ := x
    have ⟨h1, h2, h3⟩ := memWf_cons.1 h
    simp only [memWrite]
    split
    · rename_i hk
      split
      · exact h
      · rename_i hb
        refine memWf_cons.2 ⟨fun e he => ?_, hb, h⟩
        rcases List.mem_cons.1 he with rfl | he
        · exact hk
        · exact hk.trans (h1 e he)
    · split
      · rename_i _ hk
        subst hk
        split
        · exact h3
        · rename_i hb
          exact memWf_cons.2 ⟨h1, hb, h3⟩
      · rename_i h4 h5
        refine memWf_cons.2 ⟨fun e he => ?_, h2, ih h3⟩
        rcases mem_memWrite he with he | he
        · exact h1 e he
        · omega

/-- Writing bytes keeps the canonical form. -/
theorem memWriteBytes_wf {m : List Host.Cell} {a : Nat} {l : List Byte} (h : memWf m = true) : memWf (memWriteBytes m a l) = true := by
  induction l generalizing m a with
  | nil => exact h
  | cons b l ih => exact ih (memWrite_wf h)

/-- Wiping a range keeps the canonical form. -/
theorem memWipe_wf {m : List Host.Cell} {lo len : Nat} (h : memWf m = true) : memWf (memWipe m lo len) = true := by
  induction m with
  | nil => rfl
  | cons x m ih =>
    obtain ⟨k, c⟩ := x
    have ⟨h1, h2, h3⟩ := memWf_cons.1 h
    have ih := ih h3
    simp only [memWipe, List.filter_cons] at ih ⊢
    split
    · exact memWf_cons.2 ⟨fun e he => h1 e (List.mem_filter.1 he).1, h2, ih⟩
    · exact ih

/-- Wiping several ranges keeps the canonical form. -/
theorem memWipes_wf (l : List (Nat × Nat)) {m : List Host.Cell} (h : memWf m = true) :
    memWf (l.foldl (fun m x => memWipe m x.1 x.2) m) = true := by
  induction l generalizing m with
  | nil => exact h
  | cons x l ih => exact ih (memWipe_wf h)

/-- A byte below every listed address reads 0. -/
theorem memRead_below {m : List Host.Cell} {a : Nat} (h : ∀ e ∈ m, a < e.1) : memRead m a = 0 := by
  induction m with
  | nil => rfl
  | cons x m ih =>
    obtain ⟨k, c⟩ := x
    have hk : a < k := h (k, c) (by simp)
    simp only [memRead]
    rw [if_neg (by omega)]
    exact ih (fun e he => h e (List.mem_cons_of_mem _ he))

/-- A byte read after a write: the byte written there, what stood elsewhere. -/
theorem memRead_memWrite {m : List Host.Cell} (h : memWf m = true) (a x : Nat) (b : Byte) :
    memRead (memWrite m a b) x = if x = a then b else memRead m x := by
  induction m with
  | nil =>
    simp only [memWrite]
    by_cases hb : b = 0
    · rw [if_pos hb]
      simp [memRead, hb]
    · rw [if_neg hb]
      by_cases hx : x = a
      · simp [memRead, hx]
      · simp [memRead, hx, Ne.symm hx]
  | cons y m ih =>
    obtain ⟨k, c⟩ := y
    have ⟨h1, h2, h3⟩ := memWf_cons.1 h
    have ih := ih h3
    simp only [memWrite]
    split
    · rename_i hk
      split
      · rename_i hb
        split
        · rename_i hx
          subst hb
          subst hx
          refine memRead_below (fun e he => ?_)
          rcases List.mem_cons.1 he with rfl | he
          · exact hk
          · exact hk.trans (h1 e he)
        · rfl
      · simp only [memRead]
        by_cases hx : x = a
        · simp [hx]
        · simp [hx, Ne.symm hx]
    · split
      · rename_i _ hk
        subst hk
        split
        · rename_i hb
          subst hb
          split
          · rename_i hx
            subst hx
            exact memRead_below h1
          · rename_i hx
            simp [memRead, Ne.symm hx]
        · simp only [memRead]
          by_cases hx : x = a
          · simp [hx]
          · simp [hx, Ne.symm hx]
      · rename_i h4 h5
        simp only [memRead, ih]
        by_cases hk : k = x
        · subst hk
          simp [Ne.symm h5]
        · simp [hk]

/-- Bytes written at ascending addresses: each reads back, every other byte as before. -/
theorem memRead_memWriteBytes {l : List Byte} : ∀ {m : List Host.Cell}, memWf m = true → ∀ (a x : Nat),
    memRead (memWriteBytes m a l) x = if a ≤ x ∧ x < a + l.length then l.getD (x - a) 0 else memRead m x := by
  induction l with
  | nil =>
    intro m _ a x
    simp [memWriteBytes]
  | cons b l ih =>
    intro m h a x
    rw [memWriteBytes, ih (memWrite_wf h), memRead_memWrite h]
    by_cases hx : x = a
    · subst hx
      simp
    · by_cases hlt : a + 1 ≤ x ∧ x < a + 1 + l.length
      · have h1 : a ≤ x ∧ x < a + (b :: l).length := by
          simp only [List.length_cons]
          omega
        have h2 : x - a = (x - (a + 1)) + 1 := by omega
        rw [if_pos hlt, if_pos h1, h2, List.getD_cons_succ]
      · have h1 : ¬(a ≤ x ∧ x < a + (b :: l).length) := by
          simp only [List.length_cons]
          omega
        rw [if_neg hlt, if_neg h1, if_neg hx]

end Sys2Proof.Machine
end

