-- ==== Sys2Proof/Laws/Image.lean ====
section
/-! SUPPORT. Image.lean: an image's bytes are read as memory's are. -/

namespace Sys2Proof.Machine

/-- Cells below an address do not matter to what is read from it on. -/
theorem memRead_dropWhile {m : List Host.Cell} (a b : Nat) (hb : a ≤ b) (h : memWf m = true) :
    memRead (m.dropWhile (fun e => e.1 < a)) b = memRead m b ∧ memWf (m.dropWhile (fun e => e.1 < a)) = true ∧
      ∀ e ∈ (m.dropWhile (fun e => e.1 < a)).head?, a ≤ e.1 := by
  induction m with
  | nil => simp [memWf]
  | cons e m ih =>
    obtain ⟨k, c⟩ := e
    by_cases hk : k < a
    · have := ih (memWf_cons.1 h).2.2
      have hkb : k ≠ b := by omega
      simpa [List.dropWhile_cons, hk, memRead, hkb] using this
    · simp [hk, h]; omega

/-- Below its first cell a memory reads 0. -/
theorem memRead_above {m : List Host.Cell} {k a : Nat} (h : ∀ e ∈ m, k < e.1) (ha : a ≤ k) : memRead m a = 0 := by
  induction m with
  | nil => rfl
  | cons e m ih =>
    have := h e (by simp)
    have hne : e.1 ≠ a := by omega
    simp only [memRead, hne, if_false]
    exact ih (fun x hx => h x (by simp [hx]))

/-- The one pass over an image's cells reads what memReadBytes does. -/
theorem bytesFrom_eq {m : List Host.Cell} (h : memWf m = true) (n a : Nat) : bytesFrom n m a = memReadBytes m a n := by
  suffices ∀ (m m' : List Host.Cell), memWf m = true → (∀ b, a ≤ b → memRead m b = memRead m' b) → bytesFrom n m a = memReadBytes m' a n from
    this m m h (fun _ _ => rfl)
  clear h
  induction n generalizing a with
  | zero => intro m m' _ _; rfl
  | succ n ih =>
    intro m m' h hm
    have hd := fun b (hb : a ≤ b) => memRead_dropWhile (m := m) a b hb h
    obtain ⟨-, hw, hh⟩ := hd a le_rfl
    unfold bytesFrom memReadBytes
    cases hx : m.dropWhile (fun e => e.1 < a) with
    | nil =>
      simp only [hx] at hd
      rw [ih (a + 1) [] m' rfl (fun b hb => by rw [← hm b (by omega), ← (hd b (by omega)).1])]
      rw [← hm a le_rfl, ← (hd a le_rfl).1]; rfl
    | cons e l =>
      obtain ⟨k, c⟩ := e
      simp only [hx] at hd hw hh
      have hk : a ≤ k := hh (k, c) rfl
      have hw' := memWf_cons.1 hw
      by_cases hka : k = a
      · simp only [hka, if_true]
        rw [ih (a + 1) l m' hw'.2.2 (fun b hb => by rw [← hm b (by omega), ← (hd b (by omega)).1]; simp [memRead, show ¬ k = b by omega])]
        rw [← hm a le_rfl, ← (hd a le_rfl).1]; simp [memRead, hka]
      · simp only [hka, if_false]
        rw [ih (a + 1) ((k, c) :: l) m' hw (fun b hb => by rw [← hm b (by omega), ← (hd b (by omega)).1])]
        rw [← hm a le_rfl, ← (hd a le_rfl).1]
        simp [memRead, hka, memRead_above hw'.1 hk]

end Sys2Proof.Machine
end

