-- ==== Sys2Proof/Laws/Keeps.lean ====
section
/-! SUPPORT. Keeps b s: what holds of every state s that a command reaches from b: the queue's rest, the grade, memory's canonical form,
the event store's bound (17 R387) and a life cycle that does not return to BLANK (16 R375). -/

namespace Sys2Proof.Machine

/-- What every command keeps. -/
structure Keeps (b s : State) : Prop where
  pending : s.pending = b.pending
  grade : s.grade = b.grade
  mem : memWf b.mem = true → memWf s.mem = true
  store : b.ev.store.length ≤ 1024 → s.ev.store.length ≤ 1024
  lcs : s.sec.lcs = b.sec.lcs

def KeepsR (b : State) (r : Result) : Prop :=
  match r with
  | .next t => Keeps b t
  | _ => True

theorem Keeps.refl (s : State) : Keeps s s := ⟨rfl, rfl, id, id, rfl⟩

theorem Keeps.of_mk {b x : State} {fresh clk just wbuf soft done next used cores parts pcs transit hbm net m1 m2 services asz rr host fab ev pow sec out}
    (h : Keeps b x) (he : ev.store = x.ev.store) (hs : sec.lcs = x.sec.lcs) :
    Keeps b (State.mk x.pending fresh x.grade clk just x.mem wbuf soft done next used cores parts pcs transit hbm net m1 m2 services asz rr host fab ev pow sec out) :=
  ⟨h.pending, h.grade, h.mem, fun k => by rw [he]; exact h.store k, hs.trans h.lcs⟩

theorem Keeps.foldl {α : Type} {b : State} {f : State → α → State} (hf : ∀ s x, Keeps b s → Keeps b (f s x)) :
    ∀ (l : List α) (s : State), Keeps b s → Keeps b (l.foldl f s)
  | [], _, h => h
  | x :: l, s, h => Keeps.foldl hf l (f s x) (hf s x h)

theorem EventStore.front_tail (e : EventStore) (r : EventRecord) : (e.front r).length + (e.tail r).length = e.store.length := by
  have h := congrArg List.length (List.takeWhile_append_dropWhile (p := r.after) (l := e.store.reverse))
  simp only [List.length_append, List.length_reverse] at h
  simp only [EventStore.front, EventStore.tail, List.length_reverse]
  omega

theorem EventStore.insert_length (e : EventStore) (r : EventRecord) : (e.insert r).store.length = e.store.length + 1 := by
  have h := e.front_tail r
  simp only [EventStore.insert, List.length_append, List.length_zipWith, List.length_cons, List.length_map, List.length_nil]
  omega

theorem EventStore.place_length {e : EventStore} {r : EventRecord} (h : e.store.length ≤ 1024) : (e.place r).store.length ≤ 1024 := by
  unfold EventStore.place
  split
  · rw [EventStore.insert_length]; omega
  · split
    · rename_i old ho
      rw [EventStore.insert_length, List.length_erase_of_mem (List.mem_of_find?_eq_some ho)]
      have := List.length_pos_of_mem (List.mem_of_find?_eq_some ho)
      omega
    · exact h

theorem EventStore.add_length {e : EventStore} {tb fo ty sev src body} (h : e.store.length ≤ 1024) :
    (e.add tb fo ty sev src body).store.length ≤ 1024 := by
  unfold EventStore.add
  dsimp only
  split
  · rename_i r hr
    split
    · have := List.length_pos_of_ne_nil (List.ne_nil_of_mem (List.mem_of_getLast? hr))
      have := e.front_tail { seq := e.nextSeq, type := BitVec.ofNat 16 ty, sev := sev, src := src, rep := 0, tFirst := tb, tLast := tb, fabOfs := fo, body := body }
      simp only [List.length_append, List.length_dropLast, List.length_cons]
      omega
    · exact EventStore.place_length h
  · exact EventStore.place_length h

theorem Keeps.ite {b x y : State} {p : Prop} [Decidable p] (hx : Keeps b x) (hy : Keeps b y) : Keeps b (if p then x else y) := by
  by_cases h : p
  · rw [if_pos h]; exact hx
  · rw [if_neg h]; exact hy

theorem KeepsR.ite {b : State} {x y : Result} {p : Prop} [Decidable p] (hx : KeepsR b x) (hy : KeepsR b y) :
    KeepsR b (if p then x else y) := by
  by_cases h : p
  · rw [if_pos h]; exact hx
  · rw [if_neg h]; exact hy

theorem KeepsR.next {b s : State} (h : Keeps b s) : KeepsR b (.next s) := h
/-- The next state a meaning answers keeps what KeepsR promises. -/
theorem KeepsR.of {b t : State} {r : Result} (h : r = .next t) (k : KeepsR b r) : Keeps b t := by rw [h] at k; exact k

theorem KeepsR.fault {b : State} {f : Fault} : KeepsR b (.fault f) := trivial
theorem KeepsR.refused {b : State} {f : Refusal} : KeepsR b (.refused f) := trivial

theorem modCore_keeps {b s : State} {c f} (h : Keeps b s) : Keeps b (s.modCore c f) := by
  unfold State.modCore
  with_reducible exact Keeps.of_mk h rfl rfl

theorem emit_keeps {b s : State} {o} (h : Keeps b s) : Keeps b (s.emit o) := by
  unfold State.emit
  with_reducible exact Keeps.of_mk h rfl rfl

theorem raise_keeps {b s : State} {v} (h : Keeps b s) : Keeps b (s.raise v) := by
  unfold State.raise
  repeat' (first | with_reducible assumption | with_reducible apply emit_keeps | split | with_reducible refine Keeps.of_mk ?_ rfl rfl)

end Sys2Proof.Machine
end

