-- ==== Sys2Proof/Laws/KeepsCore.lean ====
section
/-! SUPPORT. Keeps for each operation: what the basic operations, control and synchronisation slots keep. -/

namespace Sys2Proof.Machine

set_option linter.unusedTactic false
set_option linter.unreachableTactic false

theorem modPart_keeps {b : State} {s p f} (hs : Keeps b s) : Keeps b (s.modPart p f) := by
  unfold State.modPart
  repeat' with_reducible
    first
    | assumption | split | intro _ | refine Keeps.of_mk ?_ rfl rfl | dsimp only

theorem modCtl_keeps {b : State} {s c f} (hs : Keeps b s) : Keeps b (s.modCtl c f) := by
  unfold State.modCtl
  repeat' with_reducible
    first
    | assumption | apply modCore_keeps | split | intro _ | refine Keeps.of_mk ?_ rfl rfl | dsimp only

theorem modVec_keeps {b : State} {s c f} (hs : Keeps b s) : Keeps b (s.modVec c f) := by
  unfold State.modVec
  repeat' with_reducible
    first
    | assumption | apply modCore_keeps | split | intro _ | refine Keeps.of_mk ?_ rfl rfl | dsimp only

theorem modStr_keeps {b : State} {s c f} (hs : Keeps b s) : Keeps b (s.modStr c f) := by
  unfold State.modStr
  repeat' with_reducible
    first
    | assumption | apply modCore_keeps | split | intro _ | refine Keeps.of_mk ?_ rfl rfl | dsimp only

theorem modSyn_keeps {b : State} {s c f} (hs : Keeps b s) : Keeps b (s.modSyn c f) := by
  unfold State.modSyn
  repeat' with_reducible
    first
    | assumption | apply modCore_keeps | split | intro _ | refine Keeps.of_mk ?_ rfl rfl | dsimp only

theorem modMu_keeps {b : State} {s c f} (hs : Keeps b s) : Keeps b (s.modMu c f) := by
  unfold State.modMu
  repeat' with_reducible
    first
    | assumption | apply modCore_keeps | split | intro _ | refine Keeps.of_mk ?_ rfl rfl | dsimp only

theorem modCfg_keeps {b : State} {s c f} (hs : Keeps b s) : Keeps b (s.modCfg c f) := by
  unfold State.modCfg
  repeat' with_reducible
    first
    | assumption | apply modCore_keeps | split | intro _ | refine Keeps.of_mk ?_ rfl rfl | dsimp only

theorem modMx_keeps {b : State} {s c e f} (hs : Keeps b s) : Keeps b (s.modMx c e f) := by
  unfold State.modMx
  repeat' with_reducible
    first
    | assumption | apply modCore_keeps | split | intro _ | refine Keeps.of_mk ?_ rfl rfl | dsimp only

theorem touch_keeps {b : State} {s a} (hs : Keeps b s) : Keeps b (s.touch a) := by
  unfold State.touch
  repeat' with_reducible
    first
    | assumption | apply modCfg_keeps | apply modMx_keeps | apply Keeps.ite | split | intro _ | refine Keeps.of_mk ?_ rfl rfl | dsimp only

theorem putLine_keeps {b : State} {s a l} (hs : Keeps b s) : Keeps b (s.putLine a l) := by
  have h := touch_keeps (a := a) hs
  unfold State.putLine
  refine ⟨h.pending, h.grade, ?_, h.store, h.lcs⟩
  intro k
  dsimp only
  with_reducible exact memWriteBytes_wf (hs.mem k)

theorem laterLine_keeps {b : State} {s a l} (hs : Keeps b s) : Keeps b (s.laterLine a l) := by
  unfold State.laterLine
  repeat' with_reducible
    first
    | assumption | split | intro _ | refine Keeps.of_mk ?_ rfl rfl | dsimp only

theorem commit_keeps {b : State} {s} (hs : Keeps b s) : Keeps b (s.commit) := by
  unfold State.commit
  repeat' with_reducible
    first
    | assumption | apply putLine_keeps | refine Keeps.foldl (fun _ _ _ => ?_) _ _ ?_ | split | intro _ | refine Keeps.of_mk ?_ rfl rfl
    | dsimp only

theorem errorTo_keeps {b : State} {s req} (hs : Keeps b s) : Keeps b (s.errorTo req) := by
  unfold State.errorTo
  repeat' with_reducible
    first
    | assumption | apply emit_keeps | split | intro _ | refine Keeps.of_mk ?_ rfl rfl | dsimp only

theorem setRail_keeps {b : State} {s r v} (hs : Keeps b s) : Keeps b (s.setRail r v) := by
  unfold State.setRail
  repeat' with_reducible
    first
    | assumption | apply emit_keeps | apply Keeps.ite | split | intro _ | refine Keeps.of_mk ?_ rfl rfl | dsimp only

theorem coreRail_keeps {b : State} {s mhz} (hs : Keeps b s) : Keeps b (s.coreRail mhz) := by
  unfold State.coreRail
  repeat' with_reducible
    first
    | assumption | apply setRail_keeps | apply Keeps.ite | split | intro _ | refine Keeps.of_mk ?_ rfl rfl | dsimp only

theorem railsOff_keeps {b : State} {s l} (hs : Keeps b s) : Keeps b (s.railsOff l) := by
  unfold State.railsOff
  repeat' with_reducible
    first
    | assumption | apply setRail_keeps | refine Keeps.foldl (fun _ _ _ => ?_) _ _ ?_ | split | intro _ | refine Keeps.of_mk ?_ rfl rfl
    | dsimp only

theorem event_keeps {b : State} {s type sev p c body vector} (hs : Keeps b s) :
    Keeps b (s.event type sev p c body vector) := by
  unfold State.event
  refine ⟨hs.pending, hs.grade, hs.mem, fun k => ?_, hs.lcs⟩
  exact EventStore.add_length (hs.store k)

theorem rrIncomplete_keeps {b : State} {s cause} (hs : Keeps b s) : Keeps b (s.rrIncomplete cause) := by
  unfold State.rrIncomplete
  repeat' with_reducible
    first
    | assumption | apply event_keeps | split | intro _ | refine Keeps.of_mk ?_ rfl rfl | dsimp only

theorem rrNote_keeps {b : State} {s p type core payload at_} (hs : Keeps b s) : Keeps b (s.rrNote p type core payload at_) := by
  unfold State.rrNote
  repeat' with_reducible
    first
    | assumption | apply rrIncomplete_keeps | apply Keeps.ite | split | intro _ | refine Keeps.of_mk ?_ rfl rfl | dsimp only

theorem rrWrite_keeps {b : State} {s p addr source core l} (hs : Keeps b s) : Keeps b (s.rrWrite p addr source core l) := by
  unfold State.rrWrite
  repeat' with_reducible
    first
    | assumption | apply rrNote_keeps | split | intro _ | refine Keeps.of_mk ?_ rfl rfl | dsimp only

theorem sendMsg_keeps {b : State} {s m} (hs : Keeps b s) : Keeps b (s.sendMsg m) := by
  unfold State.sendMsg
  repeat' with_reducible
    first
    | assumption | split | intro _ | refine Keeps.of_mk ?_ rfl rfl | dsimp only

theorem releaseReq_keeps {b : State} {s m} (hs : Keeps b s) : Keeps b (s.releaseReq m) := by
  unfold State.releaseReq
  repeat' with_reducible
    first
    | assumption | apply modMu_keeps | apply Keeps.ite | split | intro _ | refine Keeps.of_mk ?_ rfl rfl | dsimp only

theorem modPort_keeps {b : State} {s n f} (hs : Keeps b s) : Keeps b (s.modPort n f) := by
  unfold State.modPort
  repeat' with_reducible
    first
    | assumption | split | intro _ | refine Keeps.of_mk ?_ rfl rfl | dsimp only

theorem oweCredit_keeps {b : State} {s n c} (hs : Keeps b s) : Keeps b (s.oweCredit n c) := by
  unfold State.oweCredit
  repeat' with_reducible
    first
    | assumption | apply modPort_keeps | split | intro _ | refine Keeps.of_mk ?_ rfl rfl | dsimp only

theorem returnCredit_keeps {b : State} {s m} (hs : Keeps b s) : Keeps b (s.returnCredit m) := by
  unfold State.returnCredit
  repeat' with_reducible
    first
    | assumption | apply oweCredit_keeps | apply Keeps.ite | split | intro _ | refine Keeps.of_mk ?_ rfl rfl | dsimp only

theorem freeEntry_keeps {b : State} {s m} (hs : Keeps b s) : Keeps b (s.freeEntry m) := by
  unfold State.freeEntry
  repeat' with_reducible
    first
    | assumption | apply returnCredit_keeps | apply Keeps.ite | split | intro _ | refine Keeps.of_mk ?_ rfl rfl | dsimp only

theorem release1_keeps {b : State} {s m} (hs : Keeps b s) : Keeps b (s.release1 m) := by
  unfold State.release1
  repeat' with_reducible
    first
    | assumption | apply releaseReq_keeps | apply freeEntry_keeps | apply Keeps.ite | split | intro _ | refine Keeps.of_mk ?_ rfl rfl
    | dsimp only

theorem freeReply_keeps {b : State} {s m} (hs : Keeps b s) : Keeps b (s.freeReply m) := by
  unfold State.freeReply
  repeat' with_reducible
    first
    | assumption | apply modMu_keeps | apply Keeps.ite | split | intro _ | refine Keeps.of_mk ?_ rfl rfl | dsimp only

theorem unsend_keeps {b : State} {s n m} (hs : Keeps b s) : Keeps b (s.unsend n m) := by
  unfold State.unsend
  repeat' with_reducible
    first
    | assumption | apply releaseReq_keeps | apply modPort_keeps | split | intro _ | refine Keeps.of_mk ?_ rfl rfl | dsimp only

theorem closePorts_keeps {b : State} {s c} (hs : Keeps b s) : Keeps b (s.closePorts c) := by
  unfold State.closePorts
  repeat' with_reducible
    first
    | assumption | apply modPort_keeps | apply unsend_keeps | refine Keeps.foldl (fun _ _ _ => ?_) _ _ ?_ | apply Keeps.ite | split
    | intro _ | refine Keeps.of_mk ?_ rfl rfl | dsimp only

theorem refuseAll_keeps {b : State} {s l} (hs : Keeps b s) : Keeps b (s.refuseAll l) := by
  unfold State.refuseAll
  repeat' with_reducible
    first
    | assumption | apply sendMsg_keeps | apply release1_keeps | refine Keeps.foldl (fun _ _ _ => ?_) _ _ ?_ | split | intro _
    | refine Keeps.of_mk ?_ rfl rfl | dsimp only

theorem closeNet_keeps {b : State} {s c} (hs : Keeps b s) : Keeps b (s.closeNet c) := by
  unfold State.closeNet
  repeat' with_reducible
    first
    | assumption | apply modMu_keeps | apply releaseReq_keeps | apply refuseAll_keeps | refine Keeps.foldl (fun _ _ _ => ?_) _ _ ?_ | split
    | intro _ | refine Keeps.of_mk ?_ rfl rfl | dsimp only

theorem dropHeld_keeps {b : State} {s c} (hs : Keeps b s) : Keeps b (s.dropHeld c) := by
  unfold State.dropHeld
  repeat' with_reducible
    first
    | assumption | apply releaseReq_keeps | refine Keeps.foldl (fun _ _ _ => ?_) _ _ ?_ | split | intro _ | refine Keeps.of_mk ?_ rfl rfl
    | dsimp only

theorem closeCore_keeps {b : State} {s c} (hs : Keeps b s) : Keeps b (s.closeCore c) := by
  unfold State.closeCore
  repeat' with_reducible
    first
    | assumption | apply modMu_keeps | apply releaseReq_keeps | apply returnCredit_keeps | apply closePorts_keeps | apply closeNet_keeps
    | apply dropHeld_keeps | refine Keeps.foldl (fun _ _ _ => ?_) _ _ ?_ | split | intro _ | refine Keeps.of_mk ?_ rfl rfl | dsimp only

theorem txnOutcome_keeps {b : State} {s p result icount} (hs : Keeps b s) : Keeps b (s.txnOutcome p result icount) := by
  unfold State.txnOutcome
  repeat' with_reducible
    first
    | assumption | apply modPart_keeps | apply modCfg_keeps | apply raise_keeps | apply event_keeps
    | refine Keeps.foldl (fun _ _ _ => ?_) _ _ ?_ | apply Keeps.ite | split | intro _ | refine Keeps.of_mk ?_ rfl rfl | dsimp only

theorem noteHold_keeps {b : State} {s p h} (hs : Keeps b s) : Keeps b (s.noteHold p h) := by
  unfold State.noteHold
  repeat' with_reducible
    first
    | assumption | apply rrNote_keeps | apply Keeps.ite | split | intro _ | refine Keeps.of_mk ?_ rfl rfl | dsimp only

theorem allHalted_keeps {b : State} {s p} (hs : Keeps b s) : Keeps b (s.allHalted p) := by
  unfold State.allHalted
  repeat' with_reducible
    first
    | assumption | apply modPart_keeps | apply Keeps.ite | split | intro _ | refine Keeps.of_mk ?_ rfl rfl | dsimp only

theorem haltEvents_keeps {b : State} {s p} (hs : Keeps b s) : Keeps b (s.haltEvents p) := by
  unfold State.haltEvents
  repeat' with_reducible
    first
    | assumption | apply modPart_keeps | apply event_keeps | refine Keeps.foldl (fun _ _ _ => ?_) _ _ ?_ | split | intro _
    | refine Keeps.of_mk ?_ rfl rfl | dsimp only

theorem haltNow_keeps {b : State} {s p h atIssue} (hs : Keeps b s) : Keeps b (s.haltNow p h atIssue) := by
  unfold State.haltNow
  repeat' with_reducible
    first
    | assumption | apply modCore_keeps | apply modPart_keeps | apply rrNote_keeps | apply closeCore_keeps | apply txnOutcome_keeps
    | apply noteHold_keeps | apply allHalted_keeps | apply haltEvents_keeps | refine Keeps.foldl (fun _ _ _ => ?_) _ _ ?_ | apply Keeps.ite
    | split | intro _ | refine Keeps.of_mk ?_ rfl rfl | dsimp only

theorem haltCore_keeps {b : State} {s c inflight slot reason addr detail atIssue handler} (hs : Keeps b s) :
    Keeps b (s.haltCore c inflight slot reason addr detail atIssue handler) := by
  unfold State.haltCore
  repeat' with_reducible
    first
    | assumption | apply modPart_keeps | apply haltNow_keeps | apply Keeps.ite | split | intro _ | refine Keeps.of_mk ?_ rfl rfl
    | dsimp only

theorem haltsFound_keeps {b : State} {s p} (hs : Keeps b s) : Keeps b (s.haltsFound p) := by
  unfold State.haltsFound
  repeat' with_reducible
    first
    | assumption | apply modPart_keeps | apply haltNow_keeps | refine Keeps.foldl (fun _ _ _ => ?_) _ _ ?_ | apply Keeps.ite | split
    | intro _ | refine Keeps.of_mk ?_ rfl rfl | dsimp only

theorem dropSoft_keeps {b : State} {s f} (hs : Keeps b s) : Keeps b (s.dropSoft f) := by
  unfold State.dropSoft
  repeat' with_reducible
    first
    | assumption | split | intro _ | refine Keeps.of_mk ?_ rfl rfl | dsimp only

theorem abandonPart_keeps {b : State} {s p} (hs : Keeps b s) : Keeps b (s.abandonPart p) := by
  unfold State.abandonPart
  repeat' with_reducible
    first
    | assumption | apply modCore_keeps | apply modPart_keeps | apply closeCore_keeps | apply dropSoft_keeps
    | refine Keeps.foldl (fun _ _ _ => ?_) _ _ ?_ | split | intro _ | refine Keeps.of_mk ?_ rfl rfl | dsimp only

theorem stopPart_keeps {b : State} {s p} (hs : Keeps b s) : Keeps b (s.stopPart p) := by
  unfold State.stopPart
  repeat' with_reducible
    first
    | assumption | apply modPart_keeps | apply rrNote_keeps | apply txnOutcome_keeps | apply noteHold_keeps | apply haltEvents_keeps
    | apply abandonPart_keeps | refine Keeps.foldl (fun _ _ _ => ?_) _ _ ?_ | apply Keeps.ite | split | intro _
    | refine Keeps.of_mk ?_ rfl rfl | dsimp only

theorem haltAt_keeps {b : State} {s c x} (hs : Keeps b s) : Keeps b (s.haltAt c x) := by
  unfold State.haltAt
  repeat' with_reducible
    first
    | assumption | apply haltCore_keeps | split | intro _ | refine Keeps.of_mk ?_ rfl rfl | dsimp only

theorem issueSlot_keeps {b : State} {c causes effect s} (heffect : ∀ z, Keeps b z → Keeps b (effect z)) (hs : Keeps b s) :
    KeepsR b (issueSlot c causes effect s) := by
  unfold issueSlot
  repeat' with_reducible
    first
    | assumption | apply heffect | apply KeepsR.next | apply haltAt_keeps | apply Keeps.ite | apply KeepsR.ite | split | intro _
    | refine Keeps.of_mk ?_ rfl rfl | dsimp only

theorem issueControl_keeps {b : State} {c opc w f s} (hs : Keeps b s) : KeepsR b (issueControl c opc w f s) := by
  unfold issueControl
  repeat' with_reducible
    first
    | assumption | apply KeepsR.next | apply modCtl_keeps | apply issueSlot_keeps | split | intro _ | refine Keeps.of_mk ?_ rfl rfl
    | dsimp only

theorem spanFill_keeps {b : State} {s c p id} (hs : Keeps b s) : Keeps b (s.spanFill c p id) := by
  unfold State.spanFill
  repeat' with_reducible
    first
    | assumption | apply modPart_keeps | refine Keeps.foldl (fun _ _ _ => ?_) _ _ ?_ | apply Keeps.ite | split | intro _
    | refine Keeps.of_mk ?_ rfl rfl | dsimp only

theorem finishCore_keeps {b : State} {s c} (hs : Keeps b s) : Keeps b (s.finishCore c) := by
  unfold State.finishCore
  repeat' with_reducible
    first
    | assumption | apply modCtl_keeps | apply spanFill_keeps | refine Keeps.foldl (fun _ _ _ => ?_) _ _ ?_ | split | intro _
    | refine Keeps.of_mk ?_ rfl rfl | dsimp only

theorem execNop_keeps {b : State} {_core _slot s} (hs : Keeps b s) : KeepsR b (execNop _core _slot s) := by
  unfold execNop
  repeat' with_reducible
    first
    | assumption | apply KeepsR.next | split | intro _ | refine Keeps.of_mk ?_ rfl rfl | dsimp only

theorem execHalt_keeps {b : State} {core w s} (hs : Keeps b s) : KeepsR b (execHalt core w s) := by
  unfold execHalt
  repeat' with_reducible
    first
    | assumption | apply KeepsR.next | apply issueControl_keeps | split | intro _ | refine Keeps.of_mk ?_ rfl rfl | dsimp only

theorem execFin_keeps {b : State} {core w s} (hs : Keeps b s) : KeepsR b (execFin core w s) := by
  unfold execFin
  repeat' with_reducible
    first
    | assumption | apply KeepsR.next | apply modCtl_keeps | apply issueSlot_keeps | apply finishCore_keeps | split | intro _
    | refine Keeps.of_mk ?_ rfl rfl | dsimp only

theorem execCset_keeps {b : State} {core w s} (hs : Keeps b s) : KeepsR b (execCset core w s) := by
  unfold execCset
  repeat' with_reducible
    first
    | assumption | apply KeepsR.next | apply issueControl_keeps | split | intro _ | refine Keeps.of_mk ?_ rfl rfl | dsimp only

theorem execCadd_keeps {b : State} {core w s} (hs : Keeps b s) : KeepsR b (execCadd core w s) := by
  unfold execCadd
  repeat' with_reducible
    first
    | assumption | apply KeepsR.next | apply issueControl_keeps | split | intro _ | refine Keeps.of_mk ?_ rfl rfl | dsimp only

theorem execCaddc_keeps {b : State} {core w s} (hs : Keeps b s) : KeepsR b (execCaddc core w s) := by
  unfold execCaddc
  repeat' with_reducible
    first
    | assumption | apply KeepsR.next | apply issueControl_keeps | split | intro _ | refine Keeps.of_mk ?_ rfl rfl | dsimp only

theorem execPsetl_keeps {b : State} {core w s} (hs : Keeps b s) : KeepsR b (execPsetl core w s) := by
  unfold execPsetl
  repeat' with_reducible
    first
    | assumption | apply KeepsR.next | apply issueControl_keeps | split | intro _ | refine Keeps.of_mk ?_ rfl rfl | dsimp only

theorem execPseth_keeps {b : State} {core w s} (hs : Keeps b s) : KeepsR b (execPseth core w s) := by
  unfold execPseth
  repeat' with_reducible
    first
    | assumption | apply KeepsR.next | apply issueControl_keeps | split | intro _ | refine Keeps.of_mk ?_ rfl rfl | dsimp only

theorem execPadd_keeps {b : State} {core w s} (hs : Keeps b s) : KeepsR b (execPadd core w s) := by
  unfold execPadd
  repeat' with_reducible
    first
    | assumption | apply KeepsR.next | apply issueControl_keeps | split | intro _ | refine Keeps.of_mk ?_ rfl rfl | dsimp only

theorem execPmac_keeps {b : State} {core w s} (hs : Keeps b s) : KeepsR b (execPmac core w s) := by
  unfold execPmac
  repeat' with_reducible
    first
    | assumption | apply KeepsR.next | apply issueControl_keeps | split | intro _ | refine Keeps.of_mk ?_ rfl rfl | dsimp only

theorem execKcmpc_keeps {b : State} {core w s} (hs : Keeps b s) : KeepsR b (execKcmpc core w s) := by
  unfold execKcmpc
  repeat' with_reducible
    first
    | assumption | apply KeepsR.next | apply issueControl_keeps | split | intro _ | refine Keeps.of_mk ?_ rfl rfl | dsimp only

theorem execKcmpcc_keeps {b : State} {core w s} (hs : Keeps b s) : KeepsR b (execKcmpcc core w s) := by
  unfold execKcmpcc
  repeat' with_reducible
    first
    | assumption | apply KeepsR.next | apply issueControl_keeps | split | intro _ | refine Keeps.of_mk ?_ rfl rfl | dsimp only

theorem execKcmpp_keeps {b : State} {core w s} (hs : Keeps b s) : KeepsR b (execKcmpp core w s) := by
  unfold execKcmpp
  repeat' with_reducible
    first
    | assumption | apply KeepsR.next | apply issueControl_keeps | split | intro _ | refine Keeps.of_mk ?_ rfl rfl | dsimp only

theorem execKset_keeps {b : State} {core w s} (hs : Keeps b s) : KeepsR b (execKset core w s) := by
  unfold execKset
  repeat' with_reducible
    first
    | assumption | apply KeepsR.next | apply issueControl_keeps | split | intro _ | refine Keeps.of_mk ?_ rfl rfl | dsimp only

theorem execKop_keeps {b : State} {core w s} (hs : Keeps b s) : KeepsR b (execKop core w s) := by
  unfold execKop
  repeat' with_reducible
    first
    | assumption | apply KeepsR.next | apply issueControl_keeps | split | intro _ | refine Keeps.of_mk ?_ rfl rfl | dsimp only

theorem execBr_keeps {b : State} {core w s} (hs : Keeps b s) : KeepsR b (execBr core w s) := by
  unfold execBr
  repeat' with_reducible
    first
    | assumption | apply KeepsR.next | apply issueControl_keeps | split | intro _ | refine Keeps.of_mk ?_ rfl rfl | dsimp only

theorem execBk_keeps {b : State} {core w s} (hs : Keeps b s) : KeepsR b (execBk core w s) := by
  unfold execBk
  repeat' with_reducible
    first
    | assumption | apply KeepsR.next | apply issueControl_keeps | split | intro _ | refine Keeps.of_mk ?_ rfl rfl | dsimp only

theorem execBp_keeps {b : State} {core w s} (hs : Keeps b s) : KeepsR b (execBp core w s) := by
  unfold execBp
  repeat' with_reducible
    first
    | assumption | apply KeepsR.next | apply issueControl_keeps | split | intro _ | refine Keeps.of_mk ?_ rfl rfl | dsimp only

theorem execRep_keeps {b : State} {core w s} (hs : Keeps b s) : KeepsR b (execRep core w s) := by
  unfold execRep
  repeat' with_reducible
    first
    | assumption | apply KeepsR.next | apply issueControl_keeps | split | intro _ | refine Keeps.of_mk ?_ rfl rfl | dsimp only

theorem holdReq_keeps {b : State} {s m} (hs : Keeps b s) : Keeps b (s.holdReq m) := by
  unfold State.holdReq
  repeat' with_reducible
    first
    | assumption | apply modMu_keeps | apply Keeps.ite | split | intro _ | refine Keeps.of_mk ?_ rfl rfl | dsimp only

theorem acceptSend_keeps {b : State} {s c m} (hs : Keeps b s) : Keeps b (s.acceptSend c m) := by
  unfold State.acceptSend
  repeat' with_reducible
    first
    | assumption | apply modMu_keeps | apply sendMsg_keeps | apply holdReq_keeps | split | intro _ | refine Keeps.of_mk ?_ rfl rfl
    | dsimp only

theorem txAcquire_keeps {b : State} {s c a} (hs : Keeps b s) : Keeps b (s.txAcquire c a) := by
  induction a generalizing s with
  | nil => exact hs
  | cons x l ih =>
    obtain ⟨e, m⟩ := x
    unfold State.txAcquire
    split
    · exact ih hs
    · split
      · exact ih (modMu_keeps (holdReq_keeps hs))
      · exact hs

theorem txRelease_keeps {b : State} {s c} (hs : Keeps b s) : Keeps b (s.txRelease c) := by
  unfold State.txRelease
  repeat' with_reducible
    first
    | assumption | apply modMu_keeps | apply releaseReq_keeps | refine Keeps.foldl (fun _ _ _ => ?_) _ _ ?_ | split | intro _
    | refine Keeps.of_mk ?_ rfl rfl | dsimp only

theorem enterQueue_keeps {b : State} {s d m} (hs : Keeps b s) : Keeps b (s.enterQueue d m) := by
  unfold State.enterQueue
  repeat' with_reducible
    first
    | assumption | apply modMu_keeps | apply freeReply_keeps | apply Keeps.ite | split | intro _ | refine Keeps.of_mk ?_ rfl rfl
    | dsimp only

theorem txDeliver_keeps {b : State} {s c m} (hs : Keeps b s) : Keeps b (s.txDeliver c m) := by
  unfold State.txDeliver
  repeat' with_reducible
    first
    | assumption | apply enterQueue_keeps | refine Keeps.foldl (fun _ _ _ => ?_) _ _ ?_ | split | intro _ | refine Keeps.of_mk ?_ rfl rfl
    | dsimp only

theorem arrive_keeps {b : State} {s c w} (hs : Keeps b s) : Keeps b (s.arrive c w) := by
  unfold State.arrive
  repeat' with_reducible
    first
    | assumption | apply modPart_keeps | apply modSyn_keeps | apply spanFill_keeps | apply Keeps.ite | split | intro _
    | refine Keeps.of_mk ?_ rfl rfl | dsimp only

theorem receive_keeps {b : State} {s c w hdr payload} (hs : Keeps b s) : Keeps b (s.receive c w hdr payload) := by
  unfold State.receive
  repeat' with_reducible
    first
    | assumption | apply modVec_keeps | split | intro _ | refine Keeps.of_mk ?_ rfl rfl | dsimp only

theorem mrecvOp_keeps {b : State} {s c w} (hs : Keeps b s) : Keeps b (s.mrecvOp c w) := by
  unfold State.mrecvOp
  repeat' with_reducible
    first
    | assumption | apply modMu_keeps | apply receive_keeps | apply Keeps.ite | split | intro _ | refine Keeps.of_mk ?_ rfl rfl | dsimp only

theorem countClosed_keeps {b : State} {s m} (hs : Keeps b s) : Keeps b (s.countClosed m) := by
  unfold State.countClosed
  repeat' with_reducible
    first
    | assumption | apply modMu_keeps | split | intro _ | refine Keeps.of_mk ?_ rfl rfl | dsimp only

theorem msreqBy_keeps {b : State} {s c m a} (hs : Keeps b s) : Keeps b (s.msreqBy c m a) := by
  cases a <;> unfold State.msreqBy
  · exact acceptSend_keeps hs
  · exact modMu_keeps (countClosed_keeps hs)
  · exact hs
  · exact hs

theorem msreqOp_keeps {b : State} {s c w} (hs : Keeps b s) : Keeps b (s.msreqOp c w) := by
  unfold State.msreqOp
  repeat' with_reducible
    first
    | assumption | apply msreqBy_keeps | split | intro _ | refine Keeps.of_mk ?_ rfl rfl | dsimp only

theorem mtxqOp_keeps {b : State} {s c w} (hs : Keeps b s) : Keeps b (s.mtxqOp c w) := by
  unfold State.mtxqOp
  repeat' with_reducible
    first
    | assumption | apply modMu_keeps | split | intro _ | refine Keeps.of_mk ?_ rfl rfl | dsimp only

theorem mtxcOp_keeps {b : State} {s c w} (hs : Keeps b s) : Keeps b (s.mtxcOp c w) := by
  unfold State.mtxcOp
  repeat' with_reducible
    first
    | assumption | apply modMu_keeps | apply txRelease_keeps | apply txDeliver_keeps | apply countClosed_keeps
    | refine Keeps.foldl (fun _ _ _ => ?_) _ _ ?_ | split | intro _ | refine Keeps.of_mk ?_ rfl rfl | dsimp only

theorem ssigOp_keeps {b : State} {s c t w} (hs : Keeps b s) : Keeps b (s.ssigOp c t w) := by
  unfold State.ssigOp
  repeat' with_reducible
    first
    | assumption | apply modPart_keeps | apply modSyn_keeps | apply Keeps.ite | split | intro _ | refine Keeps.of_mk ?_ rfl rfl | dsimp only

theorem takeCount_keeps {b : State} {s c w} (hs : Keeps b s) : Keeps b (s.takeCount c w) := by
  unfold State.takeCount
  repeat' with_reducible
    first
    | assumption | apply modSyn_keeps | split | intro _ | refine Keeps.of_mk ?_ rfl rfl | dsimp only

theorem takeBarrier_keeps {b : State} {s c w} (hs : Keeps b s) : Keeps b (s.takeBarrier c w) := by
  unfold State.takeBarrier
  repeat' with_reducible
    first
    | assumption | apply modSyn_keeps | split | intro _ | refine Keeps.of_mk ?_ rfl rfl | dsimp only

theorem replayReceive_keeps {b : State} {s c w bf} (hs : Keeps b s) : Keeps b (s.replayReceive c w bf) := by
  unfold State.replayReceive
  repeat' with_reducible
    first
    | assumption | apply modMu_keeps | apply receive_keeps | apply Keeps.ite | split | intro _ | refine Keeps.of_mk ?_ rfl rfl | dsimp only

theorem synOp_keeps {b : State} {s c bits flag} (hs : Keeps b s) : Keeps b (s.synOp c bits flag) := by
  unfold State.synOp
  repeat' with_reducible
    first
    | assumption | apply txAcquire_keeps | apply arrive_keeps | apply mrecvOp_keeps | apply msreqOp_keeps | apply mtxqOp_keeps
    | apply mtxcOp_keeps | apply ssigOp_keeps | apply takeCount_keeps | apply takeBarrier_keeps | apply replayReceive_keeps
    | apply Keeps.ite | split | intro _ | refine Keeps.of_mk ?_ rfl rfl | dsimp only

theorem noteOutcome_keeps {b : State} {s c bits flag} (hs : Keeps b s) : Keeps b (s.noteOutcome c bits flag) := by
  unfold State.noteOutcome
  repeat' with_reducible
    first
    | assumption | apply rrNote_keeps | apply Keeps.ite | split | intro _ | refine Keeps.of_mk ?_ rfl rfl | dsimp only

theorem synDone_keeps {b : State} {s c bits flag} (hs : Keeps b s) : Keeps b (s.synDone c bits flag) := by
  unfold State.synDone
  repeat' with_reducible
    first
    | assumption | apply modCtl_keeps | apply modSyn_keeps | apply synOp_keeps | apply noteOutcome_keeps | apply Keeps.ite | split | intro _
    | refine Keeps.of_mk ?_ rfl rfl | dsimp only

theorem synWaits_keeps {b : State} {s c bits} (hs : Keeps b s) : Keeps b (s.synWaits c bits) := by
  unfold State.synWaits
  extract_lets w first s1 s2 s3
  have h1 : Keeps b s1 := by
    simp only [s1]
    split
    · exact txAcquire_keeps hs
    · exact hs
  clear_value s1
  have h2 : Keeps b s2 := by
    simp only [s2]
    split
    · exact arrive_keeps h1
    · exact h1
  clear_value s2
  have h3 : Keeps b s3 := modSyn_keeps h2
  clear_value s3
  split
  · exact modCtl_keeps h3
  · exact h3

theorem issueSync_keeps {b : State} {c opc w s} (hs : Keeps b s) : KeepsR b (issueSync c opc w s) := by
  unfold issueSync
  repeat' with_reducible
    first
    | assumption | apply KeepsR.next | apply issueSlot_keeps | apply synDone_keeps | apply synWaits_keeps | split | intro _
    | refine Keeps.of_mk ?_ rfl rfl | dsimp only

theorem execSsig_keeps {b : State} {core tgt w s} (hs : Keeps b s) : KeepsR b (execSsig core tgt w s) := by
  unfold execSsig
  repeat' with_reducible
    first
    | assumption | apply KeepsR.next | apply modCtl_keeps | apply issueSlot_keeps | apply ssigOp_keeps | split | intro _
    | refine Keeps.of_mk ?_ rfl rfl | dsimp only

theorem execSrel_keeps {b : State} {core w s} (hs : Keeps b s) : KeepsR b (execSrel core w s) := by
  unfold execSrel
  repeat' with_reducible
    first
    | assumption | apply KeepsR.next | apply issueSync_keeps | split | intro _ | refine Keeps.of_mk ?_ rfl rfl | dsimp only

theorem execSwait_keeps {b : State} {core w s} (hs : Keeps b s) : KeepsR b (execSwait core w s) := by
  unfold execSwait
  repeat' with_reducible
    first
    | assumption | apply KeepsR.next | apply issueSync_keeps | split | intro _ | refine Keeps.of_mk ?_ rfl rfl | dsimp only

theorem execCfl_keeps {b : State} {core w s} (hs : Keeps b s) : KeepsR b (execCfl core w s) := by
  unfold execCfl
  repeat' with_reducible
    first
    | assumption | apply KeepsR.next | apply issueSync_keeps | split | intro _ | refine Keeps.of_mk ?_ rfl rfl | dsimp only

theorem execCwt_keeps {b : State} {core w s} (hs : Keeps b s) : KeepsR b (execCwt core w s) := by
  unfold execCwt
  repeat' with_reducible
    first
    | assumption | apply KeepsR.next | apply issueSync_keeps | split | intro _ | refine Keeps.of_mk ?_ rfl rfl | dsimp only

theorem execMsreq_keeps {b : State} {core w s} (hs : Keeps b s) : KeepsR b (execMsreq core w s) := by
  unfold execMsreq
  repeat' with_reducible
    first
    | assumption | apply KeepsR.next | apply issueSync_keeps | split | intro _ | refine Keeps.of_mk ?_ rfl rfl | dsimp only

theorem execMrecv_keeps {b : State} {core w s} (hs : Keeps b s) : KeepsR b (execMrecv core w s) := by
  unfold execMrecv
  repeat' with_reducible
    first
    | assumption | apply KeepsR.next | apply issueSync_keeps | split | intro _ | refine Keeps.of_mk ?_ rfl rfl | dsimp only

theorem execMtxq_keeps {b : State} {core w s} (hs : Keeps b s) : KeepsR b (execMtxq core w s) := by
  unfold execMtxq
  repeat' with_reducible
    first
    | assumption | apply KeepsR.next | apply issueSync_keeps | split | intro _ | refine Keeps.of_mk ?_ rfl rfl | dsimp only

theorem execMtxc_keeps {b : State} {core w s} (hs : Keeps b s) : KeepsR b (execMtxc core w s) := by
  unfold execMtxc
  repeat' with_reducible
    first
    | assumption | apply KeepsR.next | apply issueSync_keeps | split | intro _ | refine Keeps.of_mk ?_ rfl rfl | dsimp only

end Sys2Proof.Machine
end

