-- ==== Sys2Proof/Laws/KeepsCompute.lean ====
section
/-! SUPPORT. Keeps for each operation: what streams, lines, vector and matrix slots, barriers, holds and bundles keep. -/

namespace Sys2Proof.Machine

set_option linter.unusedTactic false
set_option linter.unreachableTactic false

theorem modPc_keeps {b : State} {s ch f} (hs : Keeps b s) : Keeps b (s.modPc ch f) := by
  unfold State.modPc
  repeat' with_reducible
    first
    | assumption | apply Keeps.ite | split | intro _ | refine Keeps.of_mk ?_ rfl rfl | dsimp only

theorem sendHbm_keeps {b : State} {s c at_ place ch r} (hs : Keeps b s) : Keeps b (s.sendHbm c at_ place ch r) := by
  unfold State.sendHbm
  repeat' with_reducible
    first
    | assumption | split | intro _ | refine Keeps.of_mk ?_ rfl rfl | dsimp only

theorem delayed_keeps {b : State} {s rs} (hs : Keeps b s) : Keeps b (s.delayed rs) := by
  unfold State.delayed
  repeat' with_reducible
    first
    | assumption | apply modStr_keeps | refine Keeps.foldl (fun _ _ _ => ?_) _ _ ?_ | apply Keeps.ite | split | intro _
    | refine Keeps.of_mk ?_ rfl rfl | dsimp only

theorem undelayed_keeps {b : State} {s c id} (hs : Keeps b s) : Keeps b (s.undelayed c id) := by
  unfold State.undelayed
  repeat' with_reducible
    first
    | assumption | apply modStr_keeps | apply Keeps.ite | split | intro _ | refine Keeps.of_mk ?_ rfl rfl | dsimp only

theorem lookLine_keeps {b : State} {s a} (hs : Keeps b s) : Keeps b (s.lookLine a) := by
  unfold State.lookLine
  repeat' with_reducible
    first
    | assumption | apply modPc_keeps | apply Keeps.ite | split | intro _ | refine Keeps.of_mk ?_ rfl rfl | dsimp only

theorem writeNow_keeps {b : State} {s a l} (hs : Keeps b s) : Keeps b (s.writeNow a l) := by
  unfold State.writeNow
  repeat' with_reducible
    first
    | assumption | apply putLine_keeps | apply modPc_keeps | apply Keeps.ite | split | intro _ | refine Keeps.of_mk ?_ rfl rfl | dsimp only

theorem execHbmQueueEntry_keeps {b : State} {stack idx s} (hs : Keeps b s) : KeepsR b (execHbmQueueEntry stack idx s) := by
  unfold execHbmQueueEntry
  repeat' with_reducible
    first
    | assumption | apply KeepsR.next | apply modPc_keeps | apply delayed_keeps | apply Keeps.ite | apply KeepsR.ite | split | intro _
    | refine Keeps.of_mk ?_ rfl rfl | dsimp only

theorem execHbmRequestStart_keeps {b : State} {stack idx s} (hs : Keeps b s) : KeepsR b (execHbmRequestStart stack idx s) := by
  unfold execHbmRequestStart
  repeat' with_reducible
    first
    | assumption | apply KeepsR.next | apply modPc_keeps | apply Keeps.ite | apply KeepsR.ite | split | intro _
    | refine Keeps.of_mk ?_ rfl rfl | dsimp only

theorem modBlock_keeps {b : State} {s c id f} (hs : Keeps b s) : Keeps b (s.modBlock c id f) := by
  unfold State.modBlock
  repeat' with_reducible
    first
    | assumption | apply modStr_keeps | apply Keeps.ite | split | intro _ | refine Keeps.of_mk ?_ rfl rfl | dsimp only

theorem countLate_keeps {b : State} {s c} (hs : Keeps b s) : Keeps b (s.countLate c) := by
  unfold State.countLate
  repeat' with_reducible
    first
    | assumption | apply modStr_keeps | split | intro _ | refine Keeps.of_mk ?_ rfl rfl | dsimp only

theorem countHbm_keeps {b : State} {s stack ecc} (hs : Keeps b s) : Keeps b (s.countHbm stack ecc) := by
  unfold State.countHbm
  repeat' with_reducible
    first
    | assumption | split | intro _ | refine Keeps.of_mk ?_ rfl rfl | dsimp only

theorem execHbmWriteDone_keeps {b : State} {stack idx s} (hs : Keeps b s) : KeepsR b (execHbmWriteDone stack idx s) := by
  unfold execHbmWriteDone
  repeat' with_reducible
    first
    | assumption | apply KeepsR.next | apply putLine_keeps | apply modPc_keeps | apply modBlock_keeps | apply Keeps.ite | apply KeepsR.ite
    | split | intro _ | refine Keeps.of_mk ?_ rfl rfl | dsimp only

theorem execRefreshDone_keeps {b : State} {stack idx s} (hs : Keeps b s) : KeepsR b (execRefreshDone stack idx s) := by
  unfold execRefreshDone
  repeat' with_reducible
    first
    | assumption | apply KeepsR.next | apply modPc_keeps | apply Keeps.ite | apply KeepsR.ite | split | intro _
    | refine Keeps.of_mk ?_ rfl rfl | dsimp only

theorem execNormalRefresh_keeps {b : State} {stack idx s} (hs : Keeps b s) : KeepsR b (execNormalRefresh stack idx s) := by
  unfold execNormalRefresh
  repeat' with_reducible
    first
    | assumption | apply KeepsR.next | apply modPc_keeps | apply Keeps.ite | apply KeepsR.ite | split | intro _
    | refine Keeps.of_mk ?_ rfl rfl | dsimp only

theorem execSafetyNetRefresh_keeps {b : State} {stack idx s} (hs : Keeps b s) : KeepsR b (execSafetyNetRefresh stack idx s) := by
  unfold execSafetyNetRefresh
  repeat' with_reducible
    first
    | assumption | apply KeepsR.next | apply haltCore_keeps | apply modPc_keeps | apply delayed_keeps | apply Keeps.ite | apply KeepsR.ite
    | split | intro _ | refine Keeps.of_mk ?_ rfl rfl | dsimp only

theorem startRelease_keeps {b : State} {s p} (hs : Keeps b s) : Keeps b (s.startRelease p) := by
  unfold State.startRelease
  repeat' with_reducible
    first
    | assumption | apply modPart_keeps | apply modPc_keeps | refine Keeps.foldl (fun _ _ _ => ?_) _ _ ?_ | apply Keeps.ite | split | intro _
    | refine Keeps.of_mk ?_ rfl rfl | dsimp only

theorem releaseRefresh_keeps {b : State} {s p} (hs : Keeps b s) : Keeps b (s.releaseRefresh p) := by
  unfold State.releaseRefresh
  repeat' with_reducible
    first
    | assumption | apply modPc_keeps | refine Keeps.foldl (fun _ _ _ => ?_) _ _ ?_ | apply Keeps.ite | split | intro _
    | refine Keeps.of_mk ?_ rfl rfl | dsimp only

theorem srefOp_keeps {b : State} {s c k mask} (hs : Keeps b s) : Keeps b (s.srefOp c k mask) := by
  unfold State.srefOp
  repeat' with_reducible
    first
    | assumption | apply sendHbm_keeps | refine Keeps.foldl (fun _ _ _ => ?_) _ _ ?_ | apply Keeps.ite | split | intro _
    | refine Keeps.of_mk ?_ rfl rfl | dsimp only

theorem take_keeps {b : State} {s p res} (hs : Keeps b s) : Keeps b (s.take p res) := by
  unfold State.take
  repeat' with_reducible
    first
    | assumption | apply modPart_keeps | split | intro _ | refine Keeps.of_mk ?_ rfl rfl | dsimp only

theorem countEcc_keeps {b : State} {s a ecc} (hs : Keeps b s) : Keeps b (s.countEcc a ecc) := by
  unfold State.countEcc
  repeat' with_reducible
    first
    | assumption | apply modCfg_keeps | split | intro _ | refine Keeps.of_mk ?_ rfl rfl | dsimp only

theorem softError_keeps {b : State} {s a finder} (hs : Keeps b s) : Keeps b (s.softError a finder) := by
  unfold State.softError
  repeat' with_reducible
    first
    | assumption | apply event_keeps | split | intro _ | refine Keeps.of_mk ?_ rfl rfl | dsimp only

theorem claim_keeps {b : State} {s c w xs} (hs : Keeps b s) : Keeps b (s.claim c w xs).2 := by
  simp only [State.claim]
  split
  · exact hs
  · split
    · exact hs
    · dsimp only
      with_reducible exact modPart_keeps hs

theorem claim_keeps_eq {b t : State} {s c w xs r} (e : s.claim c w xs = (r, t)) (hs : Keeps b s) : Keeps b t := by
  have k : Keeps b (s.claim c w xs).2 := claim_keeps hs
  rw [e] at k
  exact k

theorem enterBlock_keeps {b : State} {s c bf} (hs : Keeps b s) : Keeps b (s.enterBlock c bf) := by
  unfold State.enterBlock
  repeat' with_reducible
    first
    | assumption | apply modStr_keeps | apply Keeps.ite | split | intro _ | refine Keeps.of_mk ?_ rfl rfl | dsimp only

theorem startChain_keeps {b : State} {s c n st count late} (hs : Keeps b s) : Keeps b (s.startChain c n st count late) := by
  unfold State.startChain
  repeat' with_reducible
    first
    | assumption | apply modStr_keeps | apply Keeps.ite | split | intro _ | refine Keeps.of_mk ?_ rfl rfl | dsimp only

theorem schnOp_keeps {b : State} {s c w} (hs : Keeps b s) : Keeps b (s.schnOp c w) := by
  unfold State.schnOp
  repeat' with_reducible
    first
    | assumption | apply modStr_keeps | apply claim_keeps | refine claim_keeps_eq (by assumption) ?_ | apply startChain_keeps
    | apply Keeps.ite | split | intro _ | refine Keeps.of_mk ?_ rfl rfl | dsimp only

theorem tileOp_keeps {b : State} {s c width w} (hs : Keeps b s) : Keeps b (s.tileOp c width w) := by
  unfold State.tileOp
  repeat' with_reducible
    first
    | assumption | apply modStr_keeps | apply claim_keeps | refine claim_keeps_eq (by assumption) ?_ | apply enterBlock_keeps
    | apply Keeps.ite | split | intro _ | refine Keeps.of_mk ?_ rfl rfl | dsimp only

theorem strOp_keeps {b : State} {s c bits} (hs : Keeps b s) : Keeps b (s.strOp c bits) := by
  unfold State.strOp
  repeat' with_reducible
    first
    | assumption | apply srefOp_keeps | apply schnOp_keeps | apply tileOp_keeps | split | intro _ | refine Keeps.of_mk ?_ rfl rfl
    | dsimp only

theorem issueStream_keeps {b : State} {c opc w s} (hs : Keeps b s) : KeepsR b (issueStream c opc w s) := by
  unfold issueStream
  repeat' with_reducible
    first
    | assumption | apply KeepsR.next | apply issueSlot_keeps | apply strOp_keeps | split | intro _ | refine Keeps.of_mk ?_ rfl rfl
    | dsimp only

theorem refuseBlock_keeps {b : State} {s c n ch r} (hs : Keeps b s) : Keeps b (s.refuseBlock c n ch r) := by
  unfold State.refuseBlock
  repeat' with_reducible
    first
    | assumption | apply modStr_keeps | apply haltCore_keeps | split | intro _ | refine Keeps.of_mk ?_ rfl rfl | dsimp only

theorem issueChainBlock_keeps {b : State} {s c n ch d x lag} (hs : Keeps b s) : Keeps b (s.issueChainBlock c n ch d x lag) := by
  unfold State.issueChainBlock
  repeat' with_reducible
    first
    | assumption | apply modStr_keeps | apply claim_keeps | refine claim_keeps_eq (by assumption) ?_ | apply enterBlock_keeps
    | apply refuseBlock_keeps | apply Keeps.ite | split | intro _ | refine Keeps.of_mk ?_ rfl rfl | dsimp only

theorem execSchn_keeps {b : State} {core w s} (hs : Keeps b s) : KeepsR b (execSchn core w s) := by
  unfold execSchn
  repeat' with_reducible
    first
    | assumption | apply KeepsR.next | apply issueStream_keeps | split | intro _ | refine Keeps.of_mk ?_ rfl rfl | dsimp only

theorem execStile_keeps {b : State} {core w s} (hs : Keeps b s) : KeepsR b (execStile core w s) := by
  unfold execStile
  repeat' with_reducible
    first
    | assumption | apply KeepsR.next | apply issueStream_keeps | split | intro _ | refine Keeps.of_mk ?_ rfl rfl | dsimp only

theorem execSttx1_keeps {b : State} {core w s} (hs : Keeps b s) : KeepsR b (execSttx1 core w s) := by
  unfold execSttx1
  repeat' with_reducible
    first
    | assumption | apply KeepsR.next | apply issueStream_keeps | split | intro _ | refine Keeps.of_mk ?_ rfl rfl | dsimp only

theorem execSttx2_keeps {b : State} {core w s} (hs : Keeps b s) : KeepsR b (execSttx2 core w s) := by
  unfold execSttx2
  repeat' with_reducible
    first
    | assumption | apply KeepsR.next | apply issueStream_keeps | split | intro _ | refine Keeps.of_mk ?_ rfl rfl | dsimp only

theorem execSttx4_keeps {b : State} {core w s} (hs : Keeps b s) : KeepsR b (execSttx4 core w s) := by
  unfold execSttx4
  repeat' with_reducible
    first
    | assumption | apply KeepsR.next | apply issueStream_keeps | split | intro _ | refine Keeps.of_mk ?_ rfl rfl | dsimp only

theorem execSref_keeps {b : State} {core w s} (hs : Keeps b s) : KeepsR b (execSref core w s) := by
  unfold execSref
  repeat' with_reducible
    first
    | assumption | apply KeepsR.next | apply issueStream_keeps | split | intro _ | refine Keeps.of_mk ?_ rfl rfl | dsimp only

theorem execChainLatchStart_keeps {b : State} {core slot s} (hs : Keeps b s) : KeepsR b (execChainLatchStart core slot s) := by
  unfold execChainLatchStart
  repeat' with_reducible
    first
    | assumption | apply KeepsR.next | apply modStr_keeps | apply startChain_keeps | apply Keeps.ite | apply KeepsR.ite | split | intro _
    | refine Keeps.of_mk ?_ rfl rfl | dsimp only

theorem gotLine_keeps {b : State} {s c n ch m l} (hs : Keeps b s) : Keeps b (s.gotLine c n ch m l) := by
  unfold State.gotLine
  repeat' with_reducible
    first
    | assumption | apply modStr_keeps | apply refuseBlock_keeps | apply Keeps.ite | split | intro _ | refine Keeps.of_mk ?_ rfl rfl
    | dsimp only

theorem execDescriptorLineRead_keeps {b : State} {core slot ecc s} (hs : Keeps b s) :
    KeepsR b (execDescriptorLineRead core slot ecc s) := by
  unfold execDescriptorLineRead
  repeat' with_reducible
    first
    | assumption | apply KeepsR.next | apply take_keeps | apply countEcc_keeps | apply refuseBlock_keeps | apply gotLine_keeps
    | apply Keeps.ite | apply KeepsR.ite | split | intro _ | refine Keeps.of_mk ?_ rfl rfl | dsimp only

theorem execBlockIssue_keeps {b : State} {core slot s} (hs : Keeps b s) : KeepsR b (execBlockIssue core slot s) := by
  unfold execBlockIssue
  repeat' with_reducible
    first
    | assumption | apply KeepsR.next | apply modStr_keeps | apply issueChainBlock_keeps | apply Keeps.ite | apply KeepsR.ite | split
    | intro _ | refine Keeps.of_mk ?_ rfl rfl | dsimp only

theorem execBlockLagIssue_keeps {b : State} {core s} (hs : Keeps b s) : KeepsR b (execBlockLagIssue core s) := by
  unfold execBlockLagIssue
  repeat' with_reducible
    first
    | assumption | apply KeepsR.next | apply modStr_keeps | apply enterBlock_keeps | apply issueChainBlock_keeps | apply Keeps.ite
    | apply KeepsR.ite | split | intro _ | refine Keeps.of_mk ?_ rfl rfl | dsimp only

theorem takeWide_keeps {b : State} {s c p a} (hs : Keeps b s) : Keeps b (s.takeWide c p a) := by
  unfold State.takeWide
  repeat' with_reducible
    first
    | assumption | apply take_keeps | apply Keeps.ite | split | intro _ | refine Keeps.of_mk ?_ rfl rfl | dsimp only

theorem takeSlot_keeps {b : State} {s p a write} (hs : Keeps b s) : Keeps b (s.takeSlot p a write) := by
  unfold State.takeSlot
  repeat' with_reducible
    first
    | assumption | apply take_keeps | split | intro _ | refine Keeps.of_mk ?_ rfl rfl | dsimp only

theorem dropWrites_keeps {b : State} {s c id f} (hs : Keeps b s) : Keeps b (s.dropWrites c id f) := by
  unfold State.dropWrites
  repeat' with_reducible
    first
    | assumption | split | intro _ | refine Keeps.of_mk ?_ rfl rfl | dsimp only

theorem haltBlock_keeps {b : State} {s c bf line reason detail} (hs : Keeps b s) : Keeps b (s.haltBlock c bf line reason detail) := by
  unfold State.haltBlock
  repeat' with_reducible
    first
    | assumption | apply modStr_keeps | apply haltCore_keeps | apply modBlock_keeps | apply dropWrites_keeps | apply Keeps.ite | split
    | intro _ | refine Keeps.of_mk ?_ rfl rfl | dsimp only

theorem execHbmReadReady_keeps {b : State} {stack idx ecc s} (hs : Keeps b s) : KeepsR b (execHbmReadReady stack idx ecc s) := by
  unfold execHbmReadReady
  repeat' with_reducible
    first
    | assumption | apply KeepsR.next | apply modPc_keeps | apply undelayed_keeps | apply modBlock_keeps | apply countLate_keeps
    | apply countHbm_keeps | apply haltBlock_keeps | apply Keeps.ite | apply KeepsR.ite | split | intro _ | refine Keeps.of_mk ?_ rfl rfl
    | dsimp only

theorem leave_keeps {b : State} {s c id source} (hs : Keeps b s) : Keeps b (s.leave c id source) := by
  unfold State.leave
  repeat' with_reducible
    first
    | assumption | apply modStr_keeps | split | intro _ | refine Keeps.of_mk ?_ rfl rfl | dsimp only

theorem finishBlock_keeps {b : State} {s c bf} (hs : Keeps b s) : Keeps b (s.finishBlock c bf) := by
  unfold State.finishBlock
  repeat' with_reducible
    first
    | assumption | apply modStr_keeps | apply leave_keeps | split | intro _ | refine Keeps.of_mk ?_ rfl rfl | dsimp only

theorem lineDone_keeps {b : State} {s c id idx} (hs : Keeps b s) : Keeps b (s.lineDone c id idx) := by
  unfold State.lineDone
  repeat' with_reducible
    first
    | assumption | apply modBlock_keeps | apply finishBlock_keeps | apply Keeps.ite | split | intro _ | refine Keeps.of_mk ?_ rfl rfl
    | dsimp only

theorem addSrc_keeps {b : State} {s c id x} (hs : Keeps b s) : Keeps b (s.addSrc c id x) := by
  unfold State.addSrc
  repeat' with_reducible
    first
    | assumption | apply modBlock_keeps | split | intro _ | refine Keeps.of_mk ?_ rfl rfl | dsimp only

theorem readFor_keeps {b : State} {s c p bf i a ecc ok} (hok : ∀ z, Keeps b z → Keeps b (ok z)) (hs : Keeps b s) :
    Keeps b (s.readFor c p bf i a ecc ok) := by
  unfold State.readFor
  repeat' with_reducible
    first
    | assumption | apply hok | apply countEcc_keeps | apply takeSlot_keeps | apply haltBlock_keeps | apply Keeps.ite | split | intro _
    | refine Keeps.of_mk ?_ rfl rfl | dsimp only

theorem request_keeps {b : State} {s c now bf i a} (hs : Keeps b s) : Keeps b (s.request c now bf i a) := by
  unfold State.request
  repeat' with_reducible
    first
    | assumption | apply sendHbm_keeps | split | intro _ | refine Keeps.of_mk ?_ rfl rfl | dsimp only

theorem accessLine_keeps {b : State} {s c p bf late ecc} (hs : Keeps b s) : Keeps b (s.accessLine c p bf late ecc) := by
  unfold State.accessLine
  repeat' with_reducible
    first
    | assumption | apply countLate_keeps | apply addSrc_keeps | apply readFor_keeps | apply request_keeps | apply Keeps.ite | split
    | intro _ | refine Keeps.of_mk ?_ rfl rfl | dsimp only

theorem remoteRead_keeps {b : State} {s c p bf x ecc} (hs : Keeps b s) : Keeps b (s.remoteRead c p bf x ecc) := by
  unfold State.remoteRead
  repeat' with_reducible
    first
    | assumption | apply modBlock_keeps | apply readFor_keeps | apply Keeps.ite | split | intro _ | refine Keeps.of_mk ?_ rfl rfl
    | dsimp only

theorem execLineAccess_keeps {b : State} {core blk ecc s} (hs : Keeps b s) : KeepsR b (execLineAccess core blk ecc s) := by
  unfold execLineAccess
  repeat' with_reducible
    first
    | assumption | apply KeepsR.next | apply accessLine_keeps | apply remoteRead_keeps | apply Keeps.ite | apply KeepsR.ite | split
    | intro _ | refine Keeps.of_mk ?_ rfl rfl | dsimp only

theorem accessWaiting_keeps {b : State} {s c p bf x ecc} (hs : Keeps b s) : Keeps b (s.accessWaiting c p bf x ecc) := by
  unfold State.accessWaiting
  repeat' with_reducible
    first
    | assumption | apply modBlock_keeps | apply takeWide_keeps | apply readFor_keeps | apply Keeps.ite | split | intro _
    | refine Keeps.of_mk ?_ rfl rfl | dsimp only

theorem execStagingFreeSend_keeps {b : State} {core s} (hs : Keeps b s) : KeepsR b (execStagingFreeSend core s) := by
  unfold execStagingFreeSend
  repeat' with_reducible
    first
    | assumption | apply KeepsR.next | apply modBlock_keeps | apply request_keeps | apply Keeps.ite | apply KeepsR.ite | split | intro _
    | refine Keeps.of_mk ?_ rfl rfl | dsimp only

theorem release_keeps {b : State} {s c bf j now} (hs : Keeps b s) : Keeps b (s.release c bf j now) := by
  unfold State.release
  repeat' with_reducible
    first
    | assumption | apply modBlock_keeps | apply Keeps.ite | split | intro _ | refine Keeps.of_mk ?_ rfl rfl | dsimp only

theorem execLineArrival_keeps {b : State} {core blk s} (hs : Keeps b s) : KeepsR b (execLineArrival core blk s) := by
  unfold execLineArrival
  repeat' with_reducible
    first
    | assumption | apply KeepsR.next | apply modBlock_keeps | apply leave_keeps | apply release_keeps
    | refine Keeps.foldl (fun _ _ _ => ?_) _ _ ?_ | apply Keeps.ite | apply KeepsR.ite | split | intro _ | refine Keeps.of_mk ?_ rfl rfl
    | dsimp only

theorem releaseNext_keeps {b : State} {s c id f} (hs : Keeps b s) : Keeps b (s.releaseNext c id f) := by
  unfold State.releaseNext
  repeat' with_reducible
    first
    | assumption | apply release_keeps | apply Keeps.ite | split | intro _ | refine Keeps.of_mk ?_ rfl rfl | dsimp only

theorem execTransposeLineRelease_keeps {b : State} {core blk s} (hs : Keeps b s) : KeepsR b (execTransposeLineRelease core blk s) := by
  unfold execTransposeLineRelease
  repeat' with_reducible
    first
    | assumption | apply KeepsR.next | apply releaseNext_keeps | split | intro _ | refine Keeps.of_mk ?_ rfl rfl | dsimp only

theorem execQuadrantLineRelease_keeps {b : State} {core blk s} (hs : Keeps b s) : KeepsR b (execQuadrantLineRelease core blk s) := by
  unfold execQuadrantLineRelease
  repeat' with_reducible
    first
    | assumption | apply KeepsR.next | apply releaseNext_keeps | split | intro _ | refine Keeps.of_mk ?_ rfl rfl | dsimp only

theorem execMxsLineRelease_keeps {b : State} {core blk s} (hs : Keeps b s) : KeepsR b (execMxsLineRelease core blk s) := by
  unfold execMxsLineRelease
  repeat' with_reducible
    first
    | assumption | apply KeepsR.next | apply releaseNext_keeps | split | intro _ | refine Keeps.of_mk ?_ rfl rfl | dsimp only

theorem performLine_keeps {b : State} {s c p bf o} (hs : Keeps b s) : Keeps b (s.performLine c p bf o) := by
  unfold State.performLine
  repeat' with_reducible
    first
    | assumption | apply laterLine_keeps | apply sendHbm_keeps | apply modBlock_keeps | apply takeSlot_keeps | apply lineDone_keeps
    | apply Keeps.ite | split | intro _ | refine Keeps.of_mk ?_ rfl rfl | dsimp only

theorem execLineWrite_keeps {b : State} {core blk s} (hs : Keeps b s) : KeepsR b (execLineWrite core blk s) := by
  unfold execLineWrite
  repeat' with_reducible
    first
    | assumption | apply KeepsR.next | apply lineDone_keeps | apply performLine_keeps | apply Keeps.ite | apply KeepsR.ite | split | intro _
    | refine Keeps.of_mk ?_ rfl rfl | dsimp only

theorem execIndexLineRead_keeps {b : State} {core blk ecc s} (hs : Keeps b s) : KeepsR b (execIndexLineRead core blk ecc s) := by
  unfold execIndexLineRead
  repeat' with_reducible
    first
    | assumption | apply KeepsR.next | apply modBlock_keeps | apply readFor_keeps | apply Keeps.ite | apply KeepsR.ite | split | intro _
    | refine Keeps.of_mk ?_ rfl rfl | dsimp only

theorem execIndexExamine_keeps {b : State} {core blk s} (hs : Keeps b s) : KeepsR b (execIndexExamine core blk s) := by
  unfold execIndexExamine
  repeat' with_reducible
    first
    | assumption | apply KeepsR.next | apply modStr_keeps | apply modBlock_keeps | apply haltBlock_keeps | apply Keeps.ite
    | apply KeepsR.ite | split | intro _ | refine Keeps.of_mk ?_ rfl rfl | dsimp only

theorem collide_keeps {b : State} {s c cid k} (hs : Keeps b s) : Keeps b (s.collide c cid k) := by
  unfold State.collide
  repeat' with_reducible
    first
    | assumption | apply modStr_keeps | apply Keeps.ite | split | intro _ | refine Keeps.of_mk ?_ rfl rfl | dsimp only

theorem turnOver_keeps {b : State} {s c bf now} (hs : Keeps b s) : Keeps b (s.turnOver c bf now) := by
  unfold State.turnOver
  repeat' with_reducible
    first
    | assumption | apply modStr_keeps | apply modBlock_keeps | apply collide_keeps | split | intro _ | refine Keeps.of_mk ?_ rfl rfl
    | dsimp only

theorem addOut_keeps {b : State} {s c id idx addr due data} (hs : Keeps b s) : Keeps b (s.addOut c id idx addr due data) := by
  unfold State.addOut
  repeat' with_reducible
    first
    | assumption | apply modBlock_keeps | split | intro _ | refine Keeps.of_mk ?_ rfl rfl | dsimp only

theorem turnLine_keeps {b : State} {s c bf} (hs : Keeps b s) : Keeps b (s.turnLine c bf) := by
  unfold State.turnLine
  repeat' with_reducible
    first
    | assumption | apply countLate_keeps | apply Keeps.ite | split | intro _ | refine Keeps.of_mk ?_ rfl rfl | dsimp only

theorem maybeFinish_keeps {b : State} {s c id} (hs : Keeps b s) : Keeps b (s.maybeFinish c id) := by
  unfold State.maybeFinish
  repeat' with_reducible
    first
    | assumption | apply finishBlock_keeps | apply Keeps.ite | split | intro _ | refine Keeps.of_mk ?_ rfl rfl | dsimp only

theorem execGatherTurn_keeps {b : State} {core blk ecc s} (hs : Keeps b s) : KeepsR b (execGatherTurn core blk ecc s) := by
  unfold execGatherTurn
  repeat' with_reducible
    first
    | assumption | apply KeepsR.next | apply modBlock_keeps | apply countLate_keeps | apply readFor_keeps | apply request_keeps
    | apply turnOver_keeps | apply addOut_keeps | apply turnLine_keeps | apply maybeFinish_keeps | apply Keeps.ite | apply KeepsR.ite
    | split | intro _ | refine Keeps.of_mk ?_ rfl rfl | dsimp only

theorem execIndexedWrite_keeps {b : State} {core blk s} (hs : Keeps b s) : KeepsR b (execIndexedWrite core blk s) := by
  unfold execIndexedWrite
  repeat' with_reducible
    first
    | assumption | apply KeepsR.next | apply performLine_keeps | apply collide_keeps | apply Keeps.ite | apply KeepsR.ite | split | intro _
    | refine Keeps.of_mk ?_ rfl rfl | dsimp only

theorem execLateSourceAccess_keeps {b : State} {core blk ecc s} (hs : Keeps b s) : KeepsR b (execLateSourceAccess core blk ecc s) := by
  unfold execLateSourceAccess
  repeat' with_reducible
    first
    | assumption | apply KeepsR.next | apply countLate_keeps | apply addSrc_keeps | apply accessLine_keeps | apply remoteRead_keeps
    | apply accessWaiting_keeps | apply Keeps.ite | apply KeepsR.ite | split | intro _ | refine Keeps.of_mk ?_ rfl rfl | dsimp only

theorem execLateLineWrite_keeps {b : State} {core blk s} (hs : Keeps b s) : KeepsR b (execLateLineWrite core blk s) := by
  unfold execLateLineWrite
  repeat' with_reducible
    first
    | assumption | apply KeepsR.next | apply takeWide_keeps | apply performLine_keeps | apply Keeps.ite | apply KeepsR.ite | split | intro _
    | refine Keeps.of_mk ?_ rfl rfl | dsimp only

theorem vecOp_keeps {b : State} {s c bits} (hs : Keeps b s) : Keeps b (s.vecOp c bits) := by
  unfold State.vecOp
  repeat' with_reducible
    first
    | assumption | apply modVec_keeps | apply claim_keeps | refine claim_keeps_eq (by assumption) ?_ | split | intro _
    | refine Keeps.of_mk ?_ rfl rfl | dsimp only

theorem issueVector_keeps {b : State} {c opc w s} (hs : Keeps b s) : KeepsR b (issueVector c opc w s) := by
  unfold issueVector
  repeat' with_reducible
    first
    | assumption | apply KeepsR.next | apply issueSlot_keeps | apply vecOp_keeps | split | intro _ | refine Keeps.of_mk ?_ rfl rfl
    | dsimp only

theorem laterLines_keeps {b : State} {s a l} (hs : Keeps b s) : Keeps b (s.laterLines a l) := by
  unfold State.laterLines
  repeat' with_reducible
    first
    | assumption | apply laterLine_keeps | refine Keeps.foldl (fun _ _ _ => ?_) _ _ ?_ | split | intro _ | refine Keeps.of_mk ?_ rfl rfl
    | dsimp only

theorem readLines_keeps {b : State} {s errs as} (hs : Keeps b s) : Keeps b (s.readLines errs as).1 := by
  unfold State.readLines
  have key : ∀ (l : List Nat) (r : State × Option Nat), Keeps b r.1 →
      Keeps b (l.foldl (fun r a => (r.1.countEcc a (errAt errs a),
        match r.2 with
        | some x => some x
        | none => if (r.1.found a (errAt errs a)).failed then some a else none)) r).1 := by
    intro l
    induction l with
    | nil => intro r h; exact h
    | cons x l ih => intro r h; exact ih _ (countEcc_keeps h)
  exact key as (s, none) hs

theorem readLines_keeps_eq {b t : State} {s errs as r} (e : s.readLines errs as = (t, r)) (hs : Keeps b s) : Keeps b t := by
  have k : Keeps b (s.readLines errs as).1 := readLines_keeps hs
  rw [e] at k
  exact k

theorem landVector_keeps {b : State} {s c x errs} (hs : Keeps b s) : Keeps b (s.landVector c x errs) := by
  unfold State.landVector
  repeat' with_reducible
    first
    | assumption | apply modVec_keeps | apply haltCore_keeps | apply laterLines_keeps | apply readLines_keeps
    | refine readLines_keeps_eq (by assumption) ?_ | split | intro _ | refine Keeps.of_mk ?_ rfl rfl | dsimp only

theorem execVectorResultWrite_keeps {b : State} {core errs s} (hs : Keeps b s) : KeepsR b (execVectorResultWrite core errs s) := by
  unfold execVectorResultWrite
  repeat' with_reducible
    first
    | assumption | apply KeepsR.next | apply modVec_keeps | apply landVector_keeps | apply Keeps.ite | apply KeepsR.ite | split | intro _
    | refine Keeps.of_mk ?_ rfl rfl | dsimp only

theorem execVmov_keeps {b : State} {core w s} (hs : Keeps b s) : KeepsR b (execVmov core w s) := by
  unfold execVmov
  repeat' with_reducible
    first
    | assumption | apply KeepsR.next | apply issueVector_keeps | split | intro _ | refine Keeps.of_mk ?_ rfl rfl | dsimp only

theorem execVmovi_keeps {b : State} {core w s} (hs : Keeps b s) : KeepsR b (execVmovi core w s) := by
  unfold execVmovi
  repeat' with_reducible
    first
    | assumption | apply KeepsR.next | apply issueVector_keeps | split | intro _ | refine Keeps.of_mk ?_ rfl rfl | dsimp only

theorem execVsel_keeps {b : State} {core w s} (hs : Keeps b s) : KeepsR b (execVsel core w s) := by
  unfold execVsel
  repeat' with_reducible
    first
    | assumption | apply KeepsR.next | apply issueVector_keeps | split | intro _ | refine Keeps.of_mk ?_ rfl rfl | dsimp only

theorem execVadd_keeps {b : State} {core w s} (hs : Keeps b s) : KeepsR b (execVadd core w s) := by
  unfold execVadd
  repeat' with_reducible
    first
    | assumption | apply KeepsR.next | apply issueVector_keeps | split | intro _ | refine Keeps.of_mk ?_ rfl rfl | dsimp only

theorem execVsub_keeps {b : State} {core w s} (hs : Keeps b s) : KeepsR b (execVsub core w s) := by
  unfold execVsub
  repeat' with_reducible
    first
    | assumption | apply KeepsR.next | apply issueVector_keeps | split | intro _ | refine Keeps.of_mk ?_ rfl rfl | dsimp only

theorem execVmul_keeps {b : State} {core w s} (hs : Keeps b s) : KeepsR b (execVmul core w s) := by
  unfold execVmul
  repeat' with_reducible
    first
    | assumption | apply KeepsR.next | apply issueVector_keeps | split | intro _ | refine Keeps.of_mk ?_ rfl rfl | dsimp only

theorem execVfma_keeps {b : State} {core w s} (hs : Keeps b s) : KeepsR b (execVfma core w s) := by
  unfold execVfma
  repeat' with_reducible
    first
    | assumption | apply KeepsR.next | apply issueVector_keeps | split | intro _ | refine Keeps.of_mk ?_ rfl rfl | dsimp only

theorem execVmin_keeps {b : State} {core w s} (hs : Keeps b s) : KeepsR b (execVmin core w s) := by
  unfold execVmin
  repeat' with_reducible
    first
    | assumption | apply KeepsR.next | apply issueVector_keeps | split | intro _ | refine Keeps.of_mk ?_ rfl rfl | dsimp only

theorem execVmax_keeps {b : State} {core w s} (hs : Keeps b s) : KeepsR b (execVmax core w s) := by
  unfold execVmax
  repeat' with_reducible
    first
    | assumption | apply KeepsR.next | apply issueVector_keeps | split | intro _ | refine Keeps.of_mk ?_ rfl rfl | dsimp only

theorem execVabs_keeps {b : State} {core w s} (hs : Keeps b s) : KeepsR b (execVabs core w s) := by
  unfold execVabs
  repeat' with_reducible
    first
    | assumption | apply KeepsR.next | apply issueVector_keeps | split | intro _ | refine Keeps.of_mk ?_ rfl rfl | dsimp only

theorem execVneg_keeps {b : State} {core w s} (hs : Keeps b s) : KeepsR b (execVneg core w s) := by
  unfold execVneg
  repeat' with_reducible
    first
    | assumption | apply KeepsR.next | apply issueVector_keeps | split | intro _ | refine Keeps.of_mk ?_ rfl rfl | dsimp only

theorem execVand_keeps {b : State} {core w s} (hs : Keeps b s) : KeepsR b (execVand core w s) := by
  unfold execVand
  repeat' with_reducible
    first
    | assumption | apply KeepsR.next | apply issueVector_keeps | split | intro _ | refine Keeps.of_mk ?_ rfl rfl | dsimp only

theorem execVor_keeps {b : State} {core w s} (hs : Keeps b s) : KeepsR b (execVor core w s) := by
  unfold execVor
  repeat' with_reducible
    first
    | assumption | apply KeepsR.next | apply issueVector_keeps | split | intro _ | refine Keeps.of_mk ?_ rfl rfl | dsimp only

theorem execVxor_keeps {b : State} {core w s} (hs : Keeps b s) : KeepsR b (execVxor core w s) := by
  unfold execVxor
  repeat' with_reducible
    first
    | assumption | apply KeepsR.next | apply issueVector_keeps | split | intro _ | refine Keeps.of_mk ?_ rfl rfl | dsimp only

theorem execVshl_keeps {b : State} {core w s} (hs : Keeps b s) : KeepsR b (execVshl core w s) := by
  unfold execVshl
  repeat' with_reducible
    first
    | assumption | apply KeepsR.next | apply issueVector_keeps | split | intro _ | refine Keeps.of_mk ?_ rfl rfl | dsimp only

theorem execVshr_keeps {b : State} {core w s} (hs : Keeps b s) : KeepsR b (execVshr core w s) := by
  unfold execVshr
  repeat' with_reducible
    first
    | assumption | apply KeepsR.next | apply issueVector_keeps | split | intro _ | refine Keeps.of_mk ?_ rfl rfl | dsimp only

theorem execVsra_keeps {b : State} {core w s} (hs : Keeps b s) : KeepsR b (execVsra core w s) := by
  unfold execVsra
  repeat' with_reducible
    first
    | assumption | apply KeepsR.next | apply issueVector_keeps | split | intro _ | refine Keeps.of_mk ?_ rfl rfl | dsimp only

theorem execVcmp_keeps {b : State} {core w s} (hs : Keeps b s) : KeepsR b (execVcmp core w s) := by
  unfold execVcmp
  repeat' with_reducible
    first
    | assumption | apply KeepsR.next | apply issueVector_keeps | split | intro _ | refine Keeps.of_mk ?_ rfl rfl | dsimp only

theorem execQop_keeps {b : State} {core w s} (hs : Keeps b s) : KeepsR b (execQop core w s) := by
  unfold execQop
  repeat' with_reducible
    first
    | assumption | apply KeepsR.next | apply issueVector_keeps | split | intro _ | refine Keeps.of_mk ?_ rfl rfl | dsimp only

theorem execVcvt_keeps {b : State} {core w s} (hs : Keeps b s) : KeepsR b (execVcvt core w s) := by
  unfold execVcvt
  repeat' with_reducible
    first
    | assumption | apply KeepsR.next | apply issueVector_keeps | split | intro _ | refine Keeps.of_mk ?_ rfl rfl | dsimp only

theorem execVdq_keeps {b : State} {core w s} (hs : Keeps b s) : KeepsR b (execVdq core w s) := by
  unfold execVdq
  repeat' with_reducible
    first
    | assumption | apply KeepsR.next | apply issueVector_keeps | split | intro _ | refine Keeps.of_mk ?_ rfl rfl | dsimp only

theorem execVqg_keeps {b : State} {core w s} (hs : Keeps b s) : KeepsR b (execVqg core w s) := by
  unfold execVqg
  repeat' with_reducible
    first
    | assumption | apply KeepsR.next | apply issueVector_keeps | split | intro _ | refine Keeps.of_mk ?_ rfl rfl | dsimp only

theorem execVsf_keeps {b : State} {core w s} (hs : Keeps b s) : KeepsR b (execVsf core w s) := by
  unfold execVsf
  repeat' with_reducible
    first
    | assumption | apply KeepsR.next | apply issueVector_keeps | split | intro _ | refine Keeps.of_mk ?_ rfl rfl | dsimp only

theorem execVred_keeps {b : State} {core w s} (hs : Keeps b s) : KeepsR b (execVred core w s) := by
  unfold execVred
  repeat' with_reducible
    first
    | assumption | apply KeepsR.next | apply issueVector_keeps | split | intro _ | refine Keeps.of_mk ?_ rfl rfl | dsimp only

theorem execVld_keeps {b : State} {core w s} (hs : Keeps b s) : KeepsR b (execVld core w s) := by
  unfold execVld
  repeat' with_reducible
    first
    | assumption | apply KeepsR.next | apply issueVector_keeps | split | intro _ | refine Keeps.of_mk ?_ rfl rfl | dsimp only

theorem execVst_keeps {b : State} {core w s} (hs : Keeps b s) : KeepsR b (execVst core w s) := by
  unfold execVst
  repeat' with_reducible
    first
    | assumption | apply KeepsR.next | apply issueVector_keeps | split | intro _ | refine Keeps.of_mk ?_ rfl rfl | dsimp only

theorem execVflgr_keeps {b : State} {core w s} (hs : Keeps b s) : KeepsR b (execVflgr core w s) := by
  unfold execVflgr
  repeat' with_reducible
    first
    | assumption | apply KeepsR.next | apply issueVector_keeps | split | intro _ | refine Keeps.of_mk ?_ rfl rfl | dsimp only

theorem execVflgc_keeps {b : State} {core w s} (hs : Keeps b s) : KeepsR b (execVflgc core w s) := by
  unfold execVflgc
  repeat' with_reducible
    first
    | assumption | apply KeepsR.next | apply issueVector_keeps | split | intro _ | refine Keeps.of_mk ?_ rfl rfl | dsimp only

theorem mxOp_keeps {b : State} {s c e bits} (hs : Keeps b s) : Keeps b (s.mxOp c e bits) := by
  unfold State.mxOp
  repeat' with_reducible
    first
    | assumption | apply modMx_keeps | apply claim_keeps | refine claim_keeps_eq (by assumption) ?_ | apply Keeps.ite | split | intro _
    | refine Keeps.of_mk ?_ rfl rfl | dsimp only

theorem issueMatrix_keeps {b : State} {c e opc w s} (hs : Keeps b s) : KeepsR b (issueMatrix c e opc w s) := by
  unfold issueMatrix
  repeat' with_reducible
    first
    | assumption | apply KeepsR.next | apply issueSlot_keeps | apply mxOp_keeps | split | intro _ | refine Keeps.of_mk ?_ rfl rfl
    | dsimp only

theorem tileRead_keeps {b : State} {s c e errs i r} (hs : Keeps b s) : Keeps b (s.tileRead c e errs i r) := by
  unfold State.tileRead
  repeat' with_reducible
    first
    | assumption | apply modMx_keeps | apply haltCore_keeps | apply take_keeps | apply readLines_keeps
    | refine readLines_keeps_eq (by assumption) ?_ | apply Keeps.ite | split | intro _ | refine Keeps.of_mk ?_ rfl rfl | dsimp only

theorem countGating_keeps {b : State} {s c e o y} (hs : Keeps b s) : Keeps b (s.countGating c e o y) := by
  unfold State.countGating
  repeat' with_reducible
    first
    | assumption | apply modMx_keeps | apply Keeps.ite | split | intro _ | refine Keeps.of_mk ?_ rfl rfl | dsimp only

theorem execAccWrite_keeps {b : State} {core eng s} (hs : Keeps b s) : KeepsR b (execAccWrite core eng s) := by
  unfold execAccWrite
  repeat' with_reducible
    first
    | assumption | apply KeepsR.next | apply modMx_keeps | apply Keeps.ite | apply KeepsR.ite | split | intro _
    | refine Keeps.of_mk ?_ rfl rfl | dsimp only

theorem execDrainChunkPresent_keeps {b : State} {core eng s} (hs : Keeps b s) : KeepsR b (execDrainChunkPresent core eng s) := by
  unfold execDrainChunkPresent
  repeat' with_reducible
    first
    | assumption | apply KeepsR.next | apply modMx_keeps | apply Keeps.ite | apply KeepsR.ite | split | intro _
    | refine Keeps.of_mk ?_ rfl rfl | dsimp only

theorem mrqlCycle_keeps {b : State} {s c e errs x r} (hs : Keeps b s) : Keeps b (s.mrqlCycle c e errs x r) := by
  unfold State.mrqlCycle
  repeat' with_reducible
    first
    | assumption | apply modMx_keeps | apply haltCore_keeps | apply readLines_keeps | refine readLines_keeps_eq (by assumption) ?_
    | refine Keeps.foldl (fun _ _ _ => ?_) _ _ ?_ | split | intro _ | refine Keeps.of_mk ?_ rfl rfl | dsimp only

theorem engineCycle_keeps {b : State} {s c errs x e} (hs : Keeps b s) : Keeps b (s.engineCycle c errs x e) := by
  unfold State.engineCycle
  repeat' with_reducible
    first
    | assumption | apply modMx_keeps | apply tileRead_keeps | apply countGating_keeps | apply mrqlCycle_keeps
    | refine Keeps.foldl (fun _ _ _ => ?_) _ _ ?_ | split | intro _ | refine Keeps.of_mk ?_ rfl rfl | dsimp only

theorem matrixCycle_keeps {b : State} {s c errs x} (hs : Keeps b s) : Keeps b (s.matrixCycle c errs x) := by
  unfold State.matrixCycle
  repeat' with_reducible
    first
    | assumption | apply engineCycle_keeps | refine Keeps.foldl (fun _ _ _ => ?_) _ _ ?_ | split | intro _ | refine Keeps.of_mk ?_ rfl rfl
    | dsimp only

theorem execMmaI8I8_keeps {b : State} {core eng w s} (hs : Keeps b s) : KeepsR b (execMmaI8I8 core eng w s) := by
  unfold execMmaI8I8
  repeat' with_reducible
    first
    | assumption | apply KeepsR.next | apply issueMatrix_keeps | split | intro _ | refine Keeps.of_mk ?_ rfl rfl | dsimp only

theorem execMmaI8I4_keeps {b : State} {core eng w s} (hs : Keeps b s) : KeepsR b (execMmaI8I4 core eng w s) := by
  unfold execMmaI8I4
  repeat' with_reducible
    first
    | assumption | apply KeepsR.next | apply issueMatrix_keeps | split | intro _ | refine Keeps.of_mk ?_ rfl rfl | dsimp only

theorem execMmaI4I8_keeps {b : State} {core eng w s} (hs : Keeps b s) : KeepsR b (execMmaI4I8 core eng w s) := by
  unfold execMmaI4I8
  repeat' with_reducible
    first
    | assumption | apply KeepsR.next | apply issueMatrix_keeps | split | intro _ | refine Keeps.of_mk ?_ rfl rfl | dsimp only

theorem execMmaI4I4_keeps {b : State} {core eng w s} (hs : Keeps b s) : KeepsR b (execMmaI4I4 core eng w s) := by
  unfold execMmaI4I4
  repeat' with_reducible
    first
    | assumption | apply KeepsR.next | apply issueMatrix_keeps | split | intro _ | refine Keeps.of_mk ?_ rfl rfl | dsimp only

theorem execMmaE4E4_keeps {b : State} {core eng w s} (hs : Keeps b s) : KeepsR b (execMmaE4E4 core eng w s) := by
  unfold execMmaE4E4
  repeat' with_reducible
    first
    | assumption | apply KeepsR.next | apply issueMatrix_keeps | split | intro _ | refine Keeps.of_mk ?_ rfl rfl | dsimp only

theorem execMmaE4E5_keeps {b : State} {core eng w s} (hs : Keeps b s) : KeepsR b (execMmaE4E5 core eng w s) := by
  unfold execMmaE4E5
  repeat' with_reducible
    first
    | assumption | apply KeepsR.next | apply issueMatrix_keeps | split | intro _ | refine Keeps.of_mk ?_ rfl rfl | dsimp only

theorem execMmaE5E4_keeps {b : State} {core eng w s} (hs : Keeps b s) : KeepsR b (execMmaE5E4 core eng w s) := by
  unfold execMmaE5E4
  repeat' with_reducible
    first
    | assumption | apply KeepsR.next | apply issueMatrix_keeps | split | intro _ | refine Keeps.of_mk ?_ rfl rfl | dsimp only

theorem execMmaE5E5_keeps {b : State} {core eng w s} (hs : Keeps b s) : KeepsR b (execMmaE5E5 core eng w s) := by
  unfold execMmaE5E5
  repeat' with_reducible
    first
    | assumption | apply KeepsR.next | apply issueMatrix_keeps | split | intro _ | refine Keeps.of_mk ?_ rfl rfl | dsimp only

theorem execMmaE4F4_keeps {b : State} {core eng w s} (hs : Keeps b s) : KeepsR b (execMmaE4F4 core eng w s) := by
  unfold execMmaE4F4
  repeat' with_reducible
    first
    | assumption | apply KeepsR.next | apply issueMatrix_keeps | split | intro _ | refine Keeps.of_mk ?_ rfl rfl | dsimp only

theorem execMmaF4E4_keeps {b : State} {core eng w s} (hs : Keeps b s) : KeepsR b (execMmaF4E4 core eng w s) := by
  unfold execMmaF4E4
  repeat' with_reducible
    first
    | assumption | apply KeepsR.next | apply issueMatrix_keeps | split | intro _ | refine Keeps.of_mk ?_ rfl rfl | dsimp only

theorem execMmaE5F4_keeps {b : State} {core eng w s} (hs : Keeps b s) : KeepsR b (execMmaE5F4 core eng w s) := by
  unfold execMmaE5F4
  repeat' with_reducible
    first
    | assumption | apply KeepsR.next | apply issueMatrix_keeps | split | intro _ | refine Keeps.of_mk ?_ rfl rfl | dsimp only

theorem execMmaF4E5_keeps {b : State} {core eng w s} (hs : Keeps b s) : KeepsR b (execMmaF4E5 core eng w s) := by
  unfold execMmaF4E5
  repeat' with_reducible
    first
    | assumption | apply KeepsR.next | apply issueMatrix_keeps | split | intro _ | refine Keeps.of_mk ?_ rfl rfl | dsimp only

theorem execMmaF4F4_keeps {b : State} {core eng w s} (hs : Keeps b s) : KeepsR b (execMmaF4F4 core eng w s) := by
  unfold execMmaF4F4
  repeat' with_reducible
    first
    | assumption | apply KeepsR.next | apply issueMatrix_keeps | split | intro _ | refine Keeps.of_mk ?_ rfl rfl | dsimp only

theorem execMmaBf16_keeps {b : State} {core eng w s} (hs : Keeps b s) : KeepsR b (execMmaBf16 core eng w s) := by
  unfold execMmaBf16
  repeat' with_reducible
    first
    | assumption | apply KeepsR.next | apply issueMatrix_keeps | split | intro _ | refine Keeps.of_mk ?_ rfl rfl | dsimp only

theorem execMmaFp16_keeps {b : State} {core eng w s} (hs : Keeps b s) : KeepsR b (execMmaFp16 core eng w s) := by
  unfold execMmaFp16
  repeat' with_reducible
    first
    | assumption | apply KeepsR.next | apply issueMatrix_keeps | split | intro _ | refine Keeps.of_mk ?_ rfl rfl | dsimp only

theorem execMmaFp32_keeps {b : State} {core eng w s} (hs : Keeps b s) : KeepsR b (execMmaFp32 core eng w s) := by
  unfold execMmaFp32
  repeat' with_reducible
    first
    | assumption | apply KeepsR.next | apply issueMatrix_keeps | split | intro _ | refine Keeps.of_mk ?_ rfl rfl | dsimp only

theorem execCmmaI8_keeps {b : State} {core eng w s} (hs : Keeps b s) : KeepsR b (execCmmaI8 core eng w s) := by
  unfold execCmmaI8
  repeat' with_reducible
    first
    | assumption | apply KeepsR.next | apply issueMatrix_keeps | split | intro _ | refine Keeps.of_mk ?_ rfl rfl | dsimp only

theorem execCmmaE4_keeps {b : State} {core eng w s} (hs : Keeps b s) : KeepsR b (execCmmaE4 core eng w s) := by
  unfold execCmmaE4
  repeat' with_reducible
    first
    | assumption | apply KeepsR.next | apply issueMatrix_keeps | split | intro _ | refine Keeps.of_mk ?_ rfl rfl | dsimp only

theorem execCmmaE5_keeps {b : State} {core eng w s} (hs : Keeps b s) : KeepsR b (execCmmaE5 core eng w s) := by
  unfold execCmmaE5
  repeat' with_reducible
    first
    | assumption | apply KeepsR.next | apply issueMatrix_keeps | split | intro _ | refine Keeps.of_mk ?_ rfl rfl | dsimp only

theorem execSmma4I8I8_keeps {b : State} {core eng w s} (hs : Keeps b s) : KeepsR b (execSmma4I8I8 core eng w s) := by
  unfold execSmma4I8I8
  repeat' with_reducible
    first
    | assumption | apply KeepsR.next | apply issueMatrix_keeps | split | intro _ | refine Keeps.of_mk ?_ rfl rfl | dsimp only

theorem execSmma4I8I4_keeps {b : State} {core eng w s} (hs : Keeps b s) : KeepsR b (execSmma4I8I4 core eng w s) := by
  unfold execSmma4I8I4
  repeat' with_reducible
    first
    | assumption | apply KeepsR.next | apply issueMatrix_keeps | split | intro _ | refine Keeps.of_mk ?_ rfl rfl | dsimp only

theorem execSmma4I4I8_keeps {b : State} {core eng w s} (hs : Keeps b s) : KeepsR b (execSmma4I4I8 core eng w s) := by
  unfold execSmma4I4I8
  repeat' with_reducible
    first
    | assumption | apply KeepsR.next | apply issueMatrix_keeps | split | intro _ | refine Keeps.of_mk ?_ rfl rfl | dsimp only

theorem execSmma4I4I4_keeps {b : State} {core eng w s} (hs : Keeps b s) : KeepsR b (execSmma4I4I4 core eng w s) := by
  unfold execSmma4I4I4
  repeat' with_reducible
    first
    | assumption | apply KeepsR.next | apply issueMatrix_keeps | split | intro _ | refine Keeps.of_mk ?_ rfl rfl | dsimp only

theorem execSmma4E4E4_keeps {b : State} {core eng w s} (hs : Keeps b s) : KeepsR b (execSmma4E4E4 core eng w s) := by
  unfold execSmma4E4E4
  repeat' with_reducible
    first
    | assumption | apply KeepsR.next | apply issueMatrix_keeps | split | intro _ | refine Keeps.of_mk ?_ rfl rfl | dsimp only

theorem execSmma4E4E5_keeps {b : State} {core eng w s} (hs : Keeps b s) : KeepsR b (execSmma4E4E5 core eng w s) := by
  unfold execSmma4E4E5
  repeat' with_reducible
    first
    | assumption | apply KeepsR.next | apply issueMatrix_keeps | split | intro _ | refine Keeps.of_mk ?_ rfl rfl | dsimp only

theorem execSmma4E5E4_keeps {b : State} {core eng w s} (hs : Keeps b s) : KeepsR b (execSmma4E5E4 core eng w s) := by
  unfold execSmma4E5E4
  repeat' with_reducible
    first
    | assumption | apply KeepsR.next | apply issueMatrix_keeps | split | intro _ | refine Keeps.of_mk ?_ rfl rfl | dsimp only

theorem execSmma4E5E5_keeps {b : State} {core eng w s} (hs : Keeps b s) : KeepsR b (execSmma4E5E5 core eng w s) := by
  unfold execSmma4E5E5
  repeat' with_reducible
    first
    | assumption | apply KeepsR.next | apply issueMatrix_keeps | split | intro _ | refine Keeps.of_mk ?_ rfl rfl | dsimp only

theorem execSmma4E4F4_keeps {b : State} {core eng w s} (hs : Keeps b s) : KeepsR b (execSmma4E4F4 core eng w s) := by
  unfold execSmma4E4F4
  repeat' with_reducible
    first
    | assumption | apply KeepsR.next | apply issueMatrix_keeps | split | intro _ | refine Keeps.of_mk ?_ rfl rfl | dsimp only

theorem execSmma4F4E4_keeps {b : State} {core eng w s} (hs : Keeps b s) : KeepsR b (execSmma4F4E4 core eng w s) := by
  unfold execSmma4F4E4
  repeat' with_reducible
    first
    | assumption | apply KeepsR.next | apply issueMatrix_keeps | split | intro _ | refine Keeps.of_mk ?_ rfl rfl | dsimp only

theorem execSmma4E5F4_keeps {b : State} {core eng w s} (hs : Keeps b s) : KeepsR b (execSmma4E5F4 core eng w s) := by
  unfold execSmma4E5F4
  repeat' with_reducible
    first
    | assumption | apply KeepsR.next | apply issueMatrix_keeps | split | intro _ | refine Keeps.of_mk ?_ rfl rfl | dsimp only

theorem execSmma4F4E5_keeps {b : State} {core eng w s} (hs : Keeps b s) : KeepsR b (execSmma4F4E5 core eng w s) := by
  unfold execSmma4F4E5
  repeat' with_reducible
    first
    | assumption | apply KeepsR.next | apply issueMatrix_keeps | split | intro _ | refine Keeps.of_mk ?_ rfl rfl | dsimp only

theorem execSmma4F4F4_keeps {b : State} {core eng w s} (hs : Keeps b s) : KeepsR b (execSmma4F4F4 core eng w s) := by
  unfold execSmma4F4F4
  repeat' with_reducible
    first
    | assumption | apply KeepsR.next | apply issueMatrix_keeps | split | intro _ | refine Keeps.of_mk ?_ rfl rfl | dsimp only

theorem execSmma2I8I8_keeps {b : State} {core eng w s} (hs : Keeps b s) : KeepsR b (execSmma2I8I8 core eng w s) := by
  unfold execSmma2I8I8
  repeat' with_reducible
    first
    | assumption | apply KeepsR.next | apply issueMatrix_keeps | split | intro _ | refine Keeps.of_mk ?_ rfl rfl | dsimp only

theorem execSmma2I8I4_keeps {b : State} {core eng w s} (hs : Keeps b s) : KeepsR b (execSmma2I8I4 core eng w s) := by
  unfold execSmma2I8I4
  repeat' with_reducible
    first
    | assumption | apply KeepsR.next | apply issueMatrix_keeps | split | intro _ | refine Keeps.of_mk ?_ rfl rfl | dsimp only

theorem execSmma2I4I8_keeps {b : State} {core eng w s} (hs : Keeps b s) : KeepsR b (execSmma2I4I8 core eng w s) := by
  unfold execSmma2I4I8
  repeat' with_reducible
    first
    | assumption | apply KeepsR.next | apply issueMatrix_keeps | split | intro _ | refine Keeps.of_mk ?_ rfl rfl | dsimp only

theorem execSmma2I4I4_keeps {b : State} {core eng w s} (hs : Keeps b s) : KeepsR b (execSmma2I4I4 core eng w s) := by
  unfold execSmma2I4I4
  repeat' with_reducible
    first
    | assumption | apply KeepsR.next | apply issueMatrix_keeps | split | intro _ | refine Keeps.of_mk ?_ rfl rfl | dsimp only

theorem execSmma2E4E4_keeps {b : State} {core eng w s} (hs : Keeps b s) : KeepsR b (execSmma2E4E4 core eng w s) := by
  unfold execSmma2E4E4
  repeat' with_reducible
    first
    | assumption | apply KeepsR.next | apply issueMatrix_keeps | split | intro _ | refine Keeps.of_mk ?_ rfl rfl | dsimp only

theorem execSmma2E4E5_keeps {b : State} {core eng w s} (hs : Keeps b s) : KeepsR b (execSmma2E4E5 core eng w s) := by
  unfold execSmma2E4E5
  repeat' with_reducible
    first
    | assumption | apply KeepsR.next | apply issueMatrix_keeps | split | intro _ | refine Keeps.of_mk ?_ rfl rfl | dsimp only

theorem execSmma2E5E4_keeps {b : State} {core eng w s} (hs : Keeps b s) : KeepsR b (execSmma2E5E4 core eng w s) := by
  unfold execSmma2E5E4
  repeat' with_reducible
    first
    | assumption | apply KeepsR.next | apply issueMatrix_keeps | split | intro _ | refine Keeps.of_mk ?_ rfl rfl | dsimp only

theorem execSmma2E5E5_keeps {b : State} {core eng w s} (hs : Keeps b s) : KeepsR b (execSmma2E5E5 core eng w s) := by
  unfold execSmma2E5E5
  repeat' with_reducible
    first
    | assumption | apply KeepsR.next | apply issueMatrix_keeps | split | intro _ | refine Keeps.of_mk ?_ rfl rfl | dsimp only

theorem execSmma2E4F4_keeps {b : State} {core eng w s} (hs : Keeps b s) : KeepsR b (execSmma2E4F4 core eng w s) := by
  unfold execSmma2E4F4
  repeat' with_reducible
    first
    | assumption | apply KeepsR.next | apply issueMatrix_keeps | split | intro _ | refine Keeps.of_mk ?_ rfl rfl | dsimp only

theorem execSmma2F4E4_keeps {b : State} {core eng w s} (hs : Keeps b s) : KeepsR b (execSmma2F4E4 core eng w s) := by
  unfold execSmma2F4E4
  repeat' with_reducible
    first
    | assumption | apply KeepsR.next | apply issueMatrix_keeps | split | intro _ | refine Keeps.of_mk ?_ rfl rfl | dsimp only

theorem execSmma2E5F4_keeps {b : State} {core eng w s} (hs : Keeps b s) : KeepsR b (execSmma2E5F4 core eng w s) := by
  unfold execSmma2E5F4
  repeat' with_reducible
    first
    | assumption | apply KeepsR.next | apply issueMatrix_keeps | split | intro _ | refine Keeps.of_mk ?_ rfl rfl | dsimp only

theorem execSmma2F4E5_keeps {b : State} {core eng w s} (hs : Keeps b s) : KeepsR b (execSmma2F4E5 core eng w s) := by
  unfold execSmma2F4E5
  repeat' with_reducible
    first
    | assumption | apply KeepsR.next | apply issueMatrix_keeps | split | intro _ | refine Keeps.of_mk ?_ rfl rfl | dsimp only

theorem execSmma2F4F4_keeps {b : State} {core eng w s} (hs : Keeps b s) : KeepsR b (execSmma2F4F4 core eng w s) := by
  unfold execSmma2F4F4
  repeat' with_reducible
    first
    | assumption | apply KeepsR.next | apply issueMatrix_keeps | split | intro _ | refine Keeps.of_mk ?_ rfl rfl | dsimp only

theorem execLmmaI8I8_keeps {b : State} {core eng w s} (hs : Keeps b s) : KeepsR b (execLmmaI8I8 core eng w s) := by
  unfold execLmmaI8I8
  repeat' with_reducible
    first
    | assumption | apply KeepsR.next | apply issueMatrix_keeps | split | intro _ | refine Keeps.of_mk ?_ rfl rfl | dsimp only

theorem execLmmaI8I4_keeps {b : State} {core eng w s} (hs : Keeps b s) : KeepsR b (execLmmaI8I4 core eng w s) := by
  unfold execLmmaI8I4
  repeat' with_reducible
    first
    | assumption | apply KeepsR.next | apply issueMatrix_keeps | split | intro _ | refine Keeps.of_mk ?_ rfl rfl | dsimp only

theorem execLmmaI4I8_keeps {b : State} {core eng w s} (hs : Keeps b s) : KeepsR b (execLmmaI4I8 core eng w s) := by
  unfold execLmmaI4I8
  repeat' with_reducible
    first
    | assumption | apply KeepsR.next | apply issueMatrix_keeps | split | intro _ | refine Keeps.of_mk ?_ rfl rfl | dsimp only

theorem execLmmaI4I4_keeps {b : State} {core eng w s} (hs : Keeps b s) : KeepsR b (execLmmaI4I4 core eng w s) := by
  unfold execLmmaI4I4
  repeat' with_reducible
    first
    | assumption | apply KeepsR.next | apply issueMatrix_keeps | split | intro _ | refine Keeps.of_mk ?_ rfl rfl | dsimp only

theorem execLmmaE4E4_keeps {b : State} {core eng w s} (hs : Keeps b s) : KeepsR b (execLmmaE4E4 core eng w s) := by
  unfold execLmmaE4E4
  repeat' with_reducible
    first
    | assumption | apply KeepsR.next | apply issueMatrix_keeps | split | intro _ | refine Keeps.of_mk ?_ rfl rfl | dsimp only

theorem execLmmaE4E5_keeps {b : State} {core eng w s} (hs : Keeps b s) : KeepsR b (execLmmaE4E5 core eng w s) := by
  unfold execLmmaE4E5
  repeat' with_reducible
    first
    | assumption | apply KeepsR.next | apply issueMatrix_keeps | split | intro _ | refine Keeps.of_mk ?_ rfl rfl | dsimp only

theorem execLmmaE5E4_keeps {b : State} {core eng w s} (hs : Keeps b s) : KeepsR b (execLmmaE5E4 core eng w s) := by
  unfold execLmmaE5E4
  repeat' with_reducible
    first
    | assumption | apply KeepsR.next | apply issueMatrix_keeps | split | intro _ | refine Keeps.of_mk ?_ rfl rfl | dsimp only

theorem execLmmaE5E5_keeps {b : State} {core eng w s} (hs : Keeps b s) : KeepsR b (execLmmaE5E5 core eng w s) := by
  unfold execLmmaE5E5
  repeat' with_reducible
    first
    | assumption | apply KeepsR.next | apply issueMatrix_keeps | split | intro _ | refine Keeps.of_mk ?_ rfl rfl | dsimp only

theorem execLmmaE4F4_keeps {b : State} {core eng w s} (hs : Keeps b s) : KeepsR b (execLmmaE4F4 core eng w s) := by
  unfold execLmmaE4F4
  repeat' with_reducible
    first
    | assumption | apply KeepsR.next | apply issueMatrix_keeps | split | intro _ | refine Keeps.of_mk ?_ rfl rfl | dsimp only

theorem execLmmaF4E4_keeps {b : State} {core eng w s} (hs : Keeps b s) : KeepsR b (execLmmaF4E4 core eng w s) := by
  unfold execLmmaF4E4
  repeat' with_reducible
    first
    | assumption | apply KeepsR.next | apply issueMatrix_keeps | split | intro _ | refine Keeps.of_mk ?_ rfl rfl | dsimp only

theorem execLmmaE5F4_keeps {b : State} {core eng w s} (hs : Keeps b s) : KeepsR b (execLmmaE5F4 core eng w s) := by
  unfold execLmmaE5F4
  repeat' with_reducible
    first
    | assumption | apply KeepsR.next | apply issueMatrix_keeps | split | intro _ | refine Keeps.of_mk ?_ rfl rfl | dsimp only

theorem execLmmaF4E5_keeps {b : State} {core eng w s} (hs : Keeps b s) : KeepsR b (execLmmaF4E5 core eng w s) := by
  unfold execLmmaF4E5
  repeat' with_reducible
    first
    | assumption | apply KeepsR.next | apply issueMatrix_keeps | split | intro _ | refine Keeps.of_mk ?_ rfl rfl | dsimp only

theorem execLmmaF4F4_keeps {b : State} {core eng w s} (hs : Keeps b s) : KeepsR b (execLmmaF4F4 core eng w s) := by
  unfold execLmmaF4F4
  repeat' with_reducible
    first
    | assumption | apply KeepsR.next | apply issueMatrix_keeps | split | intro _ | refine Keeps.of_mk ?_ rfl rfl | dsimp only

theorem execLmmaBf16_keeps {b : State} {core eng w s} (hs : Keeps b s) : KeepsR b (execLmmaBf16 core eng w s) := by
  unfold execLmmaBf16
  repeat' with_reducible
    first
    | assumption | apply KeepsR.next | apply issueMatrix_keeps | split | intro _ | refine Keeps.of_mk ?_ rfl rfl | dsimp only

theorem execLmmaFp16_keeps {b : State} {core eng w s} (hs : Keeps b s) : KeepsR b (execLmmaFp16 core eng w s) := by
  unfold execLmmaFp16
  repeat' with_reducible
    first
    | assumption | apply KeepsR.next | apply issueMatrix_keeps | split | intro _ | refine Keeps.of_mk ?_ rfl rfl | dsimp only

theorem execLmmaFp32_keeps {b : State} {core eng w s} (hs : Keeps b s) : KeepsR b (execLmmaFp32 core eng w s) := by
  unfold execLmmaFp32
  repeat' with_reducible
    first
    | assumption | apply KeepsR.next | apply issueMatrix_keeps | split | intro _ | refine Keeps.of_mk ?_ rfl rfl | dsimp only

theorem execLcmmaI8_keeps {b : State} {core eng w s} (hs : Keeps b s) : KeepsR b (execLcmmaI8 core eng w s) := by
  unfold execLcmmaI8
  repeat' with_reducible
    first
    | assumption | apply KeepsR.next | apply issueMatrix_keeps | split | intro _ | refine Keeps.of_mk ?_ rfl rfl | dsimp only

theorem execLcmmaE4_keeps {b : State} {core eng w s} (hs : Keeps b s) : KeepsR b (execLcmmaE4 core eng w s) := by
  unfold execLcmmaE4
  repeat' with_reducible
    first
    | assumption | apply KeepsR.next | apply issueMatrix_keeps | split | intro _ | refine Keeps.of_mk ?_ rfl rfl | dsimp only

theorem execLcmmaE5_keeps {b : State} {core eng w s} (hs : Keeps b s) : KeepsR b (execLcmmaE5 core eng w s) := by
  unfold execLcmmaE5
  repeat' with_reducible
    first
    | assumption | apply KeepsR.next | apply issueMatrix_keeps | split | intro _ | refine Keeps.of_mk ?_ rfl rfl | dsimp only

theorem execMrql_keeps {b : State} {core eng w s} (hs : Keeps b s) : KeepsR b (execMrql core eng w s) := by
  unfold execMrql
  repeat' with_reducible
    first
    | assumption | apply KeepsR.next | apply issueMatrix_keeps | split | intro _ | refine Keeps.of_mk ?_ rfl rfl | dsimp only

theorem execMdrn_keeps {b : State} {core eng w s} (hs : Keeps b s) : KeepsR b (execMdrn core eng w s) := by
  unfold execMdrn
  repeat' with_reducible
    first
    | assumption | apply KeepsR.next | apply issueMatrix_keeps | split | intro _ | refine Keeps.of_mk ?_ rfl rfl | dsimp only

theorem queueSlot_keeps {b : State} {s n dst x} (hs : Keeps b s) : Keeps b (s.queueSlot n dst x) := by
  unfold State.queueSlot
  repeat' with_reducible
    first
    | assumption | apply modPort_keeps | split | intro _ | refine Keeps.of_mk ?_ rfl rfl | dsimp only

theorem sendSlot_keeps {b : State} {s dst x} (hs : Keeps b s) : Keeps b (s.sendSlot dst x) := by
  unfold State.sendSlot
  repeat' with_reducible
    first
    | assumption | apply queueSlot_keeps | split | intro _ | refine Keeps.of_mk ?_ rfl rfl | dsimp only

theorem popSlot_keeps {b : State} {s n i x} (hs : Keeps b s) : Keeps b (s.popSlot n i x) := by
  unfold State.popSlot
  repeat' with_reducible
    first
    | assumption | apply modPort_keeps | split | intro _ | refine Keeps.of_mk ?_ rfl rfl | dsimp only

theorem nakSlot_keeps {b : State} {s x stat} (hs : Keeps b s) : Keeps b (s.nakSlot x stat) := by
  unfold State.nakSlot
  repeat' with_reducible
    first
    | assumption | apply sendSlot_keeps | apply Keeps.ite | split | intro _ | refine Keeps.of_mk ?_ rfl rfl | dsimp only

theorem spanDeliver_keeps {b : State} {s p id commit} (hs : Keeps b s) : Keeps b (s.spanDeliver p id commit) := by
  unfold State.spanDeliver
  repeat' with_reducible
    first
    | assumption | apply modPart_keeps | apply commit_keeps | apply Keeps.ite | split | intro _ | refine Keeps.of_mk ?_ rfl rfl | dsimp only

theorem spanComplete_keeps {b : State} {s p id first count commit} (hs : Keeps b s) : Keeps b (s.spanComplete p id first count commit) := by
  unfold State.spanComplete
  repeat' with_reducible
    first
    | assumption | apply commit_keeps | apply sendSlot_keeps | apply spanDeliver_keeps | refine Keeps.foldl (fun _ _ _ => ?_) _ _ ?_
    | apply Keeps.ite | split | intro _ | refine Keeps.of_mk ?_ rfl rfl | dsimp only

theorem spanCountOne_keeps {b : State} {s p id armed token} (hs : Keeps b s) : Keeps b (s.spanCountOne p id armed token) := by
  unfold State.spanCountOne
  repeat' with_reducible
    first
    | assumption | apply commit_keeps | apply spanComplete_keeps | apply Keeps.ite | split | intro _ | refine Keeps.of_mk ?_ rfl rfl
    | dsimp only

theorem spanForward_keeps {b : State} {s p id armed token} (hs : Keeps b s) : Keeps b (s.spanForward p id armed token) := by
  unfold State.spanForward
  repeat' with_reducible
    first
    | assumption | apply sendSlot_keeps | apply spanCountOne_keeps | apply Keeps.ite | split | intro _ | refine Keeps.of_mk ?_ rfl rfl
    | dsimp only

theorem spanArrive_keeps {b : State} {s p id} (hs : Keeps b s) : Keeps b (s.spanArrive p id) := by
  unfold State.spanArrive
  repeat' with_reducible
    first
    | assumption | apply spanForward_keeps | apply Keeps.ite | split | intro _ | refine Keeps.of_mk ?_ rfl rfl | dsimp only

theorem applySignal_keeps {b : State} {s p c n amt refuse} (hrefuse : ∀ z, Keeps b z → Keeps b (refuse z)) (hs : Keeps b s) :
    Keeps b (s.applySignal p c n amt refuse) := by
  unfold State.applySignal
  repeat' with_reducible
    first
    | assumption | apply hrefuse | apply modSyn_keeps | apply take_keeps | apply Keeps.ite | split | intro _ | refine Keeps.of_mk ?_ rfl rfl
    | dsimp only

theorem execSignalArrival_keeps {b : State} {core s} (hs : Keeps b s) : KeepsR b (execSignalArrival core s) := by
  unfold execSignalArrival
  repeat' with_reducible
    first
    | assumption | apply KeepsR.next | apply modPart_keeps | apply haltCore_keeps | apply applySignal_keeps | split | intro _
    | refine Keeps.of_mk ?_ rfl rfl | dsimp only

theorem execWaitTimeout_keeps {b : State} {core s} (hs : Keeps b s) : KeepsR b (execWaitTimeout core s) := by
  unfold execWaitTimeout
  repeat' with_reducible
    first
    | assumption | apply KeepsR.next | apply issueSlot_keeps | apply synDone_keeps | apply Keeps.ite | apply KeepsR.ite | split | intro _
    | refine Keeps.of_mk ?_ rfl rfl | dsimp only

theorem commitDie_keeps {b : State} {s p m} (hs : Keeps b s) : Keeps b (s.commitDie p m) := by
  unfold State.commitDie
  repeat' with_reducible
    first
    | assumption | refine Keeps.foldl (fun _ _ _ => ?_) _ _ ?_ | apply Keeps.ite | split | intro _ | refine Keeps.of_mk ?_ rfl rfl
    | dsimp only

theorem commitCore_keeps {b : State} {s p c m} (hs : Keeps b s) : Keeps b (s.commitCore p c m) := by
  unfold State.commitCore
  repeat' with_reducible
    first
    | assumption | apply modCore_keeps | apply modCtl_keeps | apply modCfg_keeps | apply Keeps.ite | split | intro _
    | refine Keeps.of_mk ?_ rfl rfl | dsimp only

theorem commitTxn_keeps {b : State} {s p count} (hs : Keeps b s) : Keeps b (s.commitTxn p count) := by
  unfold State.commitTxn
  repeat' with_reducible
    first
    | assumption | apply txnOutcome_keeps | apply commitDie_keeps | split | intro _ | refine Keeps.of_mk ?_ rfl rfl | dsimp only

theorem execBarrierRootArrival_keeps {b : State} {core id s} (hs : Keeps b s) : KeepsR b (execBarrierRootArrival core id s) := by
  unfold execBarrierRootArrival
  repeat' with_reducible
    first
    | assumption | apply KeepsR.next | apply modPart_keeps | apply spanArrive_keeps | apply Keeps.ite | apply KeepsR.ite | split | intro _
    | refine Keeps.of_mk ?_ rfl rfl | dsimp only

theorem tell_keeps {b : State} {s p id x} (hs : Keeps b s) : Keeps b (s.tell p id x) := by
  unfold State.tell
  repeat' with_reducible
    first
    | assumption | apply modPart_keeps | apply modSyn_keeps | apply commitCore_keeps | apply Keeps.ite | split | intro _
    | refine Keeps.of_mk ?_ rfl rfl | dsimp only

theorem execBarrierCompletionSend_keeps {b : State} {p id s} (hs : Keeps b s) : KeepsR b (execBarrierCompletionSend p id s) := by
  unfold execBarrierCompletionSend
  repeat' with_reducible
    first
    | assumption | apply KeepsR.next | apply modPart_keeps | apply commitTxn_keeps | apply tell_keeps
    | refine Keeps.foldl (fun _ _ _ => ?_) _ _ ?_ | apply Keeps.ite | apply KeepsR.ite | split | intro _ | refine Keeps.of_mk ?_ rfl rfl
    | dsimp only

theorem execBarrierCompletionArrival_keeps {b : State} {core id s} (hs : Keeps b s) :
    KeepsR b (execBarrierCompletionArrival core id s) := by
  unfold execBarrierCompletionArrival
  repeat' with_reducible
    first
    | assumption | apply KeepsR.next | apply tell_keeps | split | intro _ | refine Keeps.of_mk ?_ rfl rfl | dsimp only

theorem execSpanCompletionDue_keeps {b : State} {p id s} (hs : Keeps b s) : KeepsR b (execSpanCompletionDue p id s) := by
  unfold execSpanCompletionDue
  repeat' with_reducible
    first
    | assumption | apply KeepsR.next | apply modPart_keeps | apply modSyn_keeps | apply txnOutcome_keeps | apply commitCore_keeps
    | apply commitTxn_keeps | refine Keeps.foldl (fun _ _ _ => ?_) _ _ ?_ | apply Keeps.ite | apply KeepsR.ite | split | intro _
    | refine Keeps.of_mk ?_ rfl rfl | dsimp only

theorem diverge_keeps {b : State} {s p pos} (hs : Keeps b s) : Keeps b (s.diverge p pos) := by
  unfold State.diverge
  repeat' with_reducible
    first
    | assumption | apply raise_keeps | apply event_keeps | apply stopPart_keeps | split | intro _ | refine Keeps.of_mk ?_ rfl rfl
    | dsimp only

theorem applyRecord_keeps {b : State} {s p r} (hs : Keeps b s) : Keeps b (s.applyRecord p r) := by
  unfold State.applyRecord
  repeat' with_reducible
    first
    | assumption | apply putLine_keeps | apply haltCore_keeps | apply take_keeps | apply applySignal_keeps | apply Keeps.ite | split
    | intro _ | refine Keeps.of_mk ?_ rfl rfl | dsimp only

theorem replayHalts_keeps {b : State} {s p held} (hs : Keeps b s) : Keeps b (s.replayHalts p held) := by
  unfold State.replayHalts
  repeat' with_reducible
    first
    | assumption | apply haltNow_keeps | refine Keeps.foldl (fun _ _ _ => ?_) _ _ ?_ | split | intro _ | refine Keeps.of_mk ?_ rfl rfl
    | dsimp only

theorem applyRecords_keeps {b : State} {s p} (hs : Keeps b s) : Keeps b (s.applyRecords p) := by
  unfold State.applyRecords
  repeat' with_reducible
    first
    | assumption | apply applyRecord_keeps | apply replayHalts_keeps | refine Keeps.foldl (fun _ _ _ => ?_) _ _ ?_ | apply Keeps.ite | split
    | intro _ | refine Keeps.of_mk ?_ rfl rfl | dsimp only

theorem takeScript_keeps {b : State} {s p} (hs : Keeps b s) : Keeps b (s.takeScript p) := by
  unfold State.takeScript
  repeat' with_reducible
    first
    | assumption | apply modPart_keeps | apply Keeps.ite | split | intro _ | refine Keeps.of_mk ?_ rfl rfl | dsimp only

theorem holdCheck_keeps {b : State} {s p} (hs : Keeps b s) : Keeps b (s.holdCheck p) := by
  unfold State.holdCheck
  repeat' with_reducible
    first
    | assumption | apply modPart_keeps | apply Keeps.ite | split | intro _ | refine Keeps.of_mk ?_ rfl rfl | dsimp only

theorem setHold_keeps {b : State} {s p h} (hs : Keeps b s) : Keeps b (s.setHold p h) := by
  unfold State.setHold
  repeat' with_reducible
    first
    | assumption | apply modPart_keeps | apply Keeps.ite | split | intro _ | refine Keeps.of_mk ?_ rfl rfl | dsimp only

theorem execSluiceHoldStart_keeps {b : State} {p s} (hs : Keeps b s) : KeepsR b (execSluiceHoldStart p s) := by
  unfold execSluiceHoldStart
  repeat' with_reducible
    first
    | assumption | apply KeepsR.next | apply haltEvents_keeps | apply diverge_keeps | apply setHold_keeps | apply Keeps.ite
    | apply KeepsR.ite | split | intro _ | refine Keeps.of_mk ?_ rfl rfl | dsimp only

theorem holdCycle_keeps {b : State} {s p h} (hs : Keeps b s) : Keeps b (s.holdCycle p h) := by
  unfold State.holdCycle
  repeat' with_reducible
    first
    | assumption | apply modPart_keeps | apply noteHold_keeps | apply setHold_keeps | apply Keeps.ite | split | intro _
    | refine Keeps.of_mk ?_ rfl rfl | dsimp only

theorem execHeldCycle_keeps {b : State} {p s} (hs : Keeps b s) : KeepsR b (execHeldCycle p s) := by
  unfold execHeldCycle
  repeat' with_reducible
    first
    | assumption | apply KeepsR.next | apply modPart_keeps | apply holdCycle_keeps | apply Keeps.ite | apply KeepsR.ite | split | intro _
    | refine Keeps.of_mk ?_ rfl rfl | dsimp only

theorem execHoldRelease_keeps {b : State} {p s} (hs : Keeps b s) : KeepsR b (execHoldRelease p s) := by
  unfold execHoldRelease
  repeat' with_reducible
    first
    | assumption | apply KeepsR.next | apply modPart_keeps | apply noteHold_keeps | apply diverge_keeps | apply replayHalts_keeps
    | apply Keeps.ite | apply KeepsR.ite | split | intro _ | refine Keeps.of_mk ?_ rfl rfl | dsimp only

theorem takeSpare_keeps {b : State} {s res} (hs : Keeps b s) : Keeps b (s.takeSpare res) := by
  unfold State.takeSpare
  repeat' with_reducible
    first
    | assumption | split | intro _ | refine Keeps.of_mk ?_ rfl rfl | dsimp only

theorem softRead_keeps {b : State} {s a ecc} (hs : Keeps b s) : Keeps b (s.softRead a ecc).2 := by
  unfold State.softRead
  extract_lets t
  have h : Keeps b t := by
    simp only [t]
    split
    · exact countEcc_keeps (takeSpare_keeps hs)
    · exact countHbm_keeps (lookLine_keeps hs)
  clear_value t
  split
  · exact softError_keeps h
  · exact h

theorem softRead_keeps_eq {b t : State} {s a ecc r} (e : s.softRead a ecc = (r, t)) (hs : Keeps b s) : Keeps b t := by
  have k : Keeps b (s.softRead a ecc).2 := softRead_keeps hs
  rw [e] at k
  exact k

theorem softWrite_keeps {b : State} {s a source core l} (hs : Keeps b s) : Keeps b (s.softWrite a source core l) := by
  unfold State.softWrite
  repeat' with_reducible
    first
    | assumption | apply putLine_keeps | apply laterLine_keeps | apply rrWrite_keeps | apply writeNow_keeps | apply takeSpare_keeps
    | apply Keeps.ite | split | intro _ | refine Keeps.of_mk ?_ rfl rfl | dsimp only

theorem modSession_keeps {b : State} {s n f} (hs : Keeps b s) : Keeps b (s.modSession n f) := by
  unfold State.modSession
  repeat' with_reducible
    first
    | assumption | apply Keeps.ite | split | intro _ | refine Keeps.of_mk ?_ rfl rfl | dsimp only

theorem complete_keeps {b : State} {s n type stat lines tag seq} (hs : Keeps b s) : Keeps b (s.complete n type stat lines tag seq) := by
  unfold State.complete
  repeat' with_reducible
    first
    | assumption | apply emit_keeps | apply raise_keeps | apply modSession_keeps | apply Keeps.ite | split | intro _
    | refine Keeps.of_mk ?_ rfl rfl | dsimp only

theorem softOne_keeps {b : State} {s j x} (hs : Keeps b s) : Keeps b (s.softOne j x).1 := by
  unfold State.softOne
  cases x <;> dsimp only
  · split
    · rename_i e; exact softRead_keeps_eq e hs
    · rename_i e; exact softRead_keeps_eq e hs
  · exact softWrite_keeps hs
  · split
    · rename_i e; exact softWrite_keeps (softRead_keeps_eq e hs)
    · rename_i e; exact softRead_keeps_eq e hs
  · split
    · rename_i e; exact softWrite_keeps (softRead_keeps_eq e hs)
    · rename_i e; exact softRead_keeps_eq e hs

theorem runSoft_keeps {b : State} {s e j l} (hs : Keeps b s) : Keeps b (s.runSoft e j l).1 := by
  induction l generalizing s j with
  | nil => exact hs
  | cons x l ih =>
    unfold State.runSoft
    split
    · dsimp only
      split
      · exact softOne_keeps hs
      · exact ih (softOne_keeps hs)
    · exact hs

theorem modSlot_keeps {b : State} {s p i f} (hs : Keeps b s) : Keeps b (s.modSlot p i f) := by
  unfold State.modSlot
  repeat' with_reducible
    first
    | assumption | apply modPart_keeps | split | intro _ | refine Keeps.of_mk ?_ rfl rfl | dsimp only

theorem asizeDone_keeps {b : State} {s stage code} (hs : Keeps b s) : Keeps b (s.asizeDone stage code) := by
  unfold State.asizeDone
  repeat' with_reducible
    first
    | assumption | apply raise_keeps | split | intro _ | refine Keeps.of_mk ?_ rfl rfl | dsimp only

theorem armDone_keeps {b : State} {s p a} (hs : Keeps b s) : Keeps b (s.armDone p a) := by
  unfold State.armDone
  repeat' with_reducible
    first
    | assumption | apply modPart_keeps | apply txnOutcome_keeps | apply asizeDone_keeps | apply Keeps.ite | split | intro _
    | refine Keeps.of_mk ?_ rfl rfl | dsimp only

theorem placed_keeps {b : State} {s p i} (hs : Keeps b s) : Keeps b (s.placed p i) := by
  unfold State.placed
  repeat' with_reducible
    first
    | assumption | apply modSession_keeps | apply complete_keeps | apply modSlot_keeps | split | intro _ | refine Keeps.of_mk ?_ rfl rfl
    | dsimp only

theorem endSoft_keeps {b : State} {s j} (hs : Keeps b s) : Keeps b (s.endSoft j) := by
  unfold State.endSoft
  repeat' with_reducible
    first
    | assumption | apply emit_keeps | apply take_keeps | apply armDone_keeps | apply placed_keeps | apply Keeps.ite | split | intro _
    | refine Keeps.of_mk ?_ rfl rfl | dsimp only

theorem serveJobs_keeps {b : State} {s e kept l} (hs : Keeps b s) : Keeps b (s.serveJobs e kept l) := by
  induction l generalizing s kept with
  | nil =>
    unfold State.serveJobs
    with_reducible exact Keeps.of_mk hs rfl rfl
  | cons j l ih =>
    unfold State.serveJobs
    split
    · exact ih hs
    · split
      · exact ih hs
      · dsimp only
        split
        · exact ih (endSoft_keeps (runSoft_keeps hs))
        · exact ih (runSoft_keeps hs)

theorem serveSoft_keeps {b : State} {s atEnd} (hs : Keeps b s) : Keeps b (s.serveSoft atEnd) := by
  unfold State.serveSoft
  repeat' with_reducible
    first
    | assumption | apply serveJobs_keeps | apply Keeps.ite | split | intro _ | refine Keeps.of_mk ?_ rfl rfl | dsimp only

theorem addSoft_keeps {b : State} {s todo errs source core fin} (hs : Keeps b s) : Keeps b (s.addSoft todo errs source core fin) := by
  unfold State.addSoft
  repeat' with_reducible
    first
    | assumption | split | intro _ | refine Keeps.of_mk ?_ rfl rfl | dsimp only

theorem dropDone_keeps {b : State} {s j} (hs : Keeps b s) : Keeps b (s.dropDone j) := by
  unfold State.dropDone
  repeat' with_reducible
    first
    | assumption | split | intro _ | refine Keeps.of_mk ?_ rfl rfl | dsimp only

theorem execScrubRead_keeps {b : State} {core ecc s} (hs : Keeps b s) : KeepsR b (execScrubRead core ecc s) := by
  unfold execScrubRead
  repeat' with_reducible
    first
    | assumption | apply KeepsR.next | apply modCfg_keeps | apply countEcc_keeps | apply softError_keeps | apply takeSpare_keeps
    | apply Keeps.ite | apply KeepsR.ite | split | intro _ | refine Keeps.of_mk ?_ rfl rfl | dsimp only

theorem execScrubWriteback_keeps {b : State} {core s} (hs : Keeps b s) : KeepsR b (execScrubWriteback core s) := by
  unfold execScrubWriteback
  repeat' with_reducible
    first
    | assumption | apply KeepsR.next | apply modCfg_keeps | apply putLine_keeps | apply takeSpare_keeps | apply Keeps.ite | apply KeepsR.ite
    | split | intro _ | refine Keeps.of_mk ?_ rfl rfl | dsimp only

theorem applyBundle_keeps {b : State} {s c bf flag} (hs : Keeps b s) : Keeps b (s.applyBundle c bf flag) := by
  unfold State.applyBundle
  repeat' with_reducible
    first
    | assumption | apply modCtl_keeps | apply modCfg_keeps | apply finishCore_keeps | apply synDone_keeps | apply strOp_keeps
    | apply vecOp_keeps | apply mxOp_keeps | refine Keeps.foldl (fun _ _ _ => ?_) _ _ ?_ | apply Keeps.ite | split | intro _
    | refine Keeps.of_mk ?_ rfl rfl | dsimp only

theorem issueSlots_keeps {b : State} {s c p fetch bf} (hs : Keeps b s) : Keeps b (s.issueSlots c p fetch bf) := by
  unfold State.issueSlots
  repeat' with_reducible
    first
    | assumption | apply haltAt_keeps | apply synWaits_keeps | apply applyBundle_keeps | split | intro _ | refine Keeps.of_mk ?_ rfl rfl
    | dsimp only

theorem fetchIssue_keeps {b : State} {s c p errs} (hs : Keeps b s) : Keeps b (s.fetchIssue c p errs) := by
  unfold State.fetchIssue
  repeat' with_reducible
    first
    | assumption | apply modCtl_keeps | apply haltCore_keeps | apply haltAt_keeps | apply take_keeps | apply countEcc_keeps
    | apply issueSlots_keeps | apply Keeps.ite | split | intro _ | refine Keeps.of_mk ?_ rfl rfl | dsimp only

theorem fetchClashes_keeps {b : State} {s p} (hs : Keeps b s) : Keeps b (s.fetchClashes p) := by
  unfold State.fetchClashes
  repeat' with_reducible
    first
    | assumption | apply haltCore_keeps | refine Keeps.foldl (fun _ _ _ => ?_) _ _ ?_ | apply Keeps.ite | split | intro _
    | refine Keeps.of_mk ?_ rfl rfl | dsimp only

theorem issueCore_keeps {b : State} {s p errs c} (hs : Keeps b s) : Keeps b (s.issueCore p errs c) := by
  unfold State.issueCore
  repeat' with_reducible
    first
    | assumption | apply take_keeps | apply matrixCycle_keeps | apply fetchIssue_keeps | apply Keeps.ite | split | intro _
    | refine Keeps.of_mk ?_ rfl rfl | dsimp only

theorem dropChunks_keeps {b : State} {s p} (hs : Keeps b s) : Keeps b (s.dropChunks p) := by
  unfold State.dropChunks
  repeat' with_reducible
    first
    | assumption | apply modMx_keeps | refine Keeps.foldl (fun _ _ _ => ?_) _ _ ?_ | split | intro _ | refine Keeps.of_mk ?_ rfl rfl
    | dsimp only

theorem issueBundle_keeps {b : State} {s p errs} (hs : Keeps b s) : Keeps b (s.issueBundle p errs) := by
  unfold State.issueBundle
  repeat' with_reducible
    first
    | assumption | apply modPart_keeps | apply diverge_keeps | apply applyRecords_keeps | apply takeScript_keeps | apply fetchClashes_keeps
    | apply issueCore_keeps | apply dropChunks_keeps | refine Keeps.foldl (fun _ _ _ => ?_) _ _ ?_ | apply Keeps.ite | split | intro _
    | refine Keeps.of_mk ?_ rfl rfl | dsimp only

theorem pipeCycle_keeps {b : State} {s p errs x} (hs : Keeps b s) : Keeps b (s.pipeCycle p errs x) := by
  unfold State.pipeCycle
  repeat' with_reducible
    first
    | assumption | apply modVec_keeps | apply modMx_keeps | apply commit_keeps | apply landVector_keeps | apply matrixCycle_keeps
    | refine Keeps.foldl (fun _ _ _ => ?_) _ _ ?_ | apply Keeps.ite | split | intro _ | refine Keeps.of_mk ?_ rfl rfl | dsimp only

theorem drainPipes_keeps {b : State} {s p errs y a} (hs : Keeps b s) : Keeps b (s.drainPipes p errs y a) := by
  induction a generalizing s y with
  | zero => exact hs
  | succ n ih =>
    unfold State.drainPipes
    split
    · exact hs
    · exact ih (pipeCycle_keeps hs)

theorem endTask_keeps {b : State} {s p} (hs : Keeps b s) : Keeps b (s.endTask p) := by
  unfold State.endTask
  repeat' with_reducible
    first
    | assumption | apply modPart_keeps | apply raise_keeps | apply stopPart_keeps | apply diverge_keeps | apply drainPipes_keeps
    | apply Keeps.ite | split | intro _ | refine Keeps.of_mk ?_ rfl rfl | dsimp only

theorem closeFinished_keeps {b : State} {s p} (hs : Keeps b s) : Keeps b (s.closeFinished p) := by
  unfold State.closeFinished
  repeat' with_reducible
    first
    | assumption | apply closeCore_keeps | refine Keeps.foldl (fun _ _ _ => ?_) _ _ ?_ | apply Keeps.ite | split | intro _
    | refine Keeps.of_mk ?_ rfl rfl | dsimp only

theorem endCycle_keeps {b : State} {s} (hs : Keeps b s) : Keeps b (s.endCycle) := by
  unfold State.endCycle
  repeat' with_reducible
    first
    | assumption | apply commit_keeps | apply haltsFound_keeps | apply holdCheck_keeps | apply serveSoft_keeps | apply endTask_keeps
    | apply closeFinished_keeps | refine Keeps.foldl (fun _ _ _ => ?_) _ _ ?_ | apply Keeps.ite | split | intro _
    | refine Keeps.of_mk ?_ rfl rfl | dsimp only

theorem execBundleIssue_keeps {b : State} {p errs s} (hs : Keeps b s) : KeepsR b (execBundleIssue p errs s) := by
  unfold execBundleIssue
  repeat' with_reducible
    first
    | assumption | apply KeepsR.next | apply issueBundle_keeps | apply endCycle_keeps | apply Keeps.ite | apply KeepsR.ite | split | intro _
    | refine Keeps.of_mk ?_ rfl rfl | dsimp only

end Sys2Proof.Machine
end

