-- ==== Sys2Proof/Laws/KeepsModule.lean ====
section
/-! SUPPORT. Keeps for each operation: what the module's commands keep. -/

namespace Sys2Proof.Machine

set_option linter.unusedTactic false
set_option linter.unreachableTactic false

theorem modAct_keeps {b : State} {s n f} (hs : Keeps b s) : Keeps b (s.modAct n f) := by
  unfold State.modAct
  repeat' with_reducible
    first
    | assumption | apply Keeps.ite | split | intro _ | refine Keeps.of_mk ?_ rfl rfl | dsimp only

theorem spend_keeps {b : State} {s n units} (hs : Keeps b s) : Keeps b (s.spend n units) := by
  unfold State.spend
  repeat' with_reducible
    first
    | assumption | apply modAct_keeps | apply Keeps.ite | split | intro _ | refine Keeps.of_mk ?_ rfl rfl | dsimp only

theorem meter_keeps {b : State} {s n tr} (hs : Keeps b s) : Keeps b (s.meter n tr).2 := by
  unfold State.meter
  split
  · exact hs
  · split
    · with_reducible exact spend_keeps hs
    · with_reducible exact Keeps.of_mk hs rfl rfl

theorem meter_keeps_eq {b t : State} {s n tr r} (e : s.meter n tr = (r, t)) (hs : Keeps b s) : Keeps b t := by
  have k : Keeps b (s.meter n tr).2 := meter_keeps hs
  rw [e] at k
  exact k

theorem meterSlot_keeps {b : State} {s n port} (hs : Keeps b s) : Keeps b (s.meterSlot n port).2 := by
  unfold State.meterSlot
  split
  · with_reducible exact Keeps.of_mk hs rfl rfl
  · split
    · exact hs
    · with_reducible exact meter_keeps hs

theorem meterSlot_keeps_eq {b t : State} {s n port r} (e : s.meterSlot n port = (r, t)) (hs : Keeps b s) : Keeps b t := by
  have k : Keeps b (s.meterSlot n port).2 := meterSlot_keeps hs
  rw [e] at k
  exact k

theorem startSoft_keeps {b : State} {s act todo errs source core fin} (hs : Keeps b s) :
    Keeps b (s.startSoft act todo errs source core fin) := by
  unfold State.startSoft
  repeat' with_reducible
    first
    | assumption | apply serveSoft_keeps | apply addSoft_keeps | apply spend_keeps | apply Keeps.ite | split | intro _
    | refine Keeps.of_mk ?_ rfl rfl | dsimp only

theorem takeMsg_keeps {b : State} {s n} (hs : Keeps b s) : Keeps b (s.takeMsg n) := by
  unfold State.takeMsg
  repeat' with_reducible
    first
    | assumption | split | intro _ | refine Keeps.of_mk ?_ rfl rfl | dsimp only

theorem meterOut_keeps {b : State} {s m} (hs : Keeps b s) : Keeps b (s.meterOut m).2 := by
  unfold State.meterOut
  split
  · with_reducible exact meter_keeps hs
  · exact hs

theorem meterOut_keeps_eq {b t : State} {s m r} (e : s.meterOut m = (r, t)) (hs : Keeps b s) : Keeps b t := by
  have k : Keeps b (s.meterOut m).2 := meterOut_keeps hs
  rw [e] at k
  exact k

theorem toService_keeps {b : State} {s m} (hs : Keeps b s) : Keeps b (s.toService m) := by
  unfold State.toService
  repeat' with_reducible
    first
    | assumption | split | intro _ | refine Keeps.of_mk ?_ rfl rfl | dsimp only

theorem enterCore_keeps {b : State} {s c m} (hs : Keeps b s) : Keeps b (s.enterCore c m) := by
  unfold State.enterCore
  repeat' with_reducible
    first
    | assumption | apply modMu_keeps | apply enterQueue_keeps | apply Keeps.ite | split | intro _ | refine Keeps.of_mk ?_ rfl rfl
    | dsimp only

theorem turnAway_keeps {b : State} {s m stat} (hs : Keeps b s) : Keeps b (s.turnAway m stat) := by
  unfold State.turnAway
  repeat' with_reducible
    first
    | assumption | apply sendMsg_keeps | apply releaseReq_keeps | apply freeEntry_keeps | apply Keeps.ite | split | intro _
    | refine Keeps.of_mk ?_ rfl rfl | dsimp only

theorem execRequestEnqueue_keeps {b : State} {n s} (hs : Keeps b s) : KeepsR b (execRequestEnqueue n s) := by
  unfold execRequestEnqueue
  repeat' with_reducible
    first
    | assumption | apply KeepsR.next | apply countClosed_keeps | apply takeMsg_keeps | apply meterOut_keeps
    | refine meterOut_keeps_eq (by assumption) ?_ | apply toService_keeps | apply enterCore_keeps | apply turnAway_keeps | apply Keeps.ite
    | apply KeepsR.ite | exact KeepsR.refused | split | intro _ | refine Keeps.of_mk ?_ rfl rfl | dsimp only

theorem enterReply_keeps {b : State} {s m} (hs : Keeps b s) : Keeps b (s.enterReply m) := by
  unfold State.enterReply
  generalize epCore m.dep = o
  cases o with
  | none => exact hs
  | some c => exact Keeps.ite hs (modMu_keeps hs)

theorem replyOut_keeps {b : State} {s m} (hs : Keeps b s) : Keeps b (s.replyOut m) := by
  unfold State.replyOut
  repeat' with_reducible
    first
    | assumption | apply sendSlot_keeps | split | intro _ | refine Keeps.of_mk ?_ rfl rfl | dsimp only

theorem execReplyEnqueue_keeps {b : State} {n s} (hs : Keeps b s) : KeepsR b (execReplyEnqueue n s) := by
  unfold execReplyEnqueue
  split
  · exact KeepsR.next hs
  · refine KeepsR.ite (KeepsR.next hs) (KeepsR.ite (KeepsR.next (enterReply_keeps (takeMsg_keeps hs))) ?_)
    split
    · rename_i e; exact KeepsR.next (replyOut_keeps (takeMsg_keeps (meterOut_keeps_eq e hs)))
    · rename_i e; exact KeepsR.next (takeMsg_keeps (meterOut_keeps_eq e hs))
    · rename_i e; exact KeepsR.next (replyOut_keeps (takeMsg_keeps (meterOut_keeps_eq e hs)))

theorem handlerHalt_keeps {b : State} {s c reason detail} (hs : Keeps b s) : Keeps b (s.handlerHalt c reason detail) := by
  unfold State.handlerHalt
  repeat' with_reducible
    first
    | assumption | apply haltCore_keeps | split | intro _ | refine Keeps.of_mk ?_ rfl rfl | dsimp only

theorem execHandlerDispatch_keeps {b : State} {core s} (hs : Keeps b s) : KeepsR b (execHandlerDispatch core s) := by
  unfold execHandlerDispatch
  repeat' with_reducible
    first
    | assumption | apply KeepsR.next | apply modMu_keeps | apply handlerHalt_keeps | apply Keeps.ite | apply KeepsR.ite | split | intro _
    | refine Keeps.of_mk ?_ rfl rfl | dsimp only

theorem nextOp_keeps {b : State} {s c} (hs : Keeps b s) : Keeps b (s.nextOp c) := by
  unfold State.nextOp
  repeat' with_reducible
    first
    | assumption | apply modMu_keeps | split | intro _ | refine Keeps.of_mk ?_ rfl rfl | dsimp only

theorem handlerStep_keeps {b : State} {c opc effect s} (he : ∀ p h w z, Keeps b z → Keeps b (effect p h w z)) (hs : Keeps b s) :
    KeepsR b (handlerStep c opc effect s) := by
  unfold handlerStep
  split
  · refine KeepsR.ite ?_ (KeepsR.next hs)
    split
    · exact KeepsR.next (handlerHalt_keeps hs)
    · exact KeepsR.next (he _ _ _ _ hs)
  · exact KeepsR.next hs

theorem execHandlerSignal_keeps {b : State} {core s} (hs : Keeps b s) : KeepsR b (execHandlerSignal core s) := by
  unfold execHandlerSignal
  repeat' with_reducible
    first
    | assumption | apply KeepsR.next | apply rrNote_keeps | apply applySignal_keeps | apply handlerHalt_keeps | apply nextOp_keeps
    | apply handlerStep_keeps | apply Keeps.ite | apply KeepsR.ite | split | intro _ | refine Keeps.of_mk ?_ rfl rfl | dsimp only

theorem execMput_keeps {b : State} {core s} (hs : Keeps b s) : KeepsR b (execMput core s) := by
  unfold execMput
  refine handlerStep_keeps (fun p h w z hz => ?_) hs
  extract_lets a
  exact Keeps.ite (nextOp_keeps (softWrite_keeps hz)) hz

theorem replyFrom_keeps {b : State} {s c h m} (hs : Keeps b s) : Keeps b (s.replyFrom c h m) := by
  unfold State.replyFrom
  repeat' with_reducible
    first
    | assumption | apply modMu_keeps | apply sendMsg_keeps | apply Keeps.ite | split | intro _ | refine Keeps.of_mk ?_ rfl rfl | dsimp only

theorem failedRead_keeps {b : State} {s c h} (hs : Keeps b s) : Keeps b (s.failedRead c h) := by
  unfold State.failedRead
  repeat' with_reducible
    first
    | assumption | apply nextOp_keeps | apply replyFrom_keeps | apply Keeps.ite | split | intro _ | refine Keeps.of_mk ?_ rfl rfl
    | dsimp only

theorem execMrply_keeps {b : State} {core ecc s} (hs : Keeps b s) : KeepsR b (execMrply core ecc s) := by
  unfold execMrply
  refine handlerStep_keeps (fun p h w z hz => ?_) hs
  extract_lets stat a
  refine Keeps.ite (Keeps.ite ?_ hz) (nextOp_keeps (replyFrom_keeps hz))
  split
  · rename_i e; exact nextOp_keeps (replyFrom_keeps (softRead_keeps_eq e hz))
  · rename_i e; exact failedRead_keeps (softRead_keeps_eq e hz)

theorem execMaadd_keeps {b : State} {core ecc s} (hs : Keeps b s) : KeepsR b (execMaadd core ecc s) := by
  unfold execMaadd
  refine handlerStep_keeps (fun p h w z hz => ?_) hs
  extract_lets a
  refine Keeps.ite ?_ hz
  split
  · rename_i e; exact nextOp_keeps (softWrite_keeps (softRead_keeps_eq e hz))
  · rename_i e; exact failedRead_keeps (softRead_keeps_eq e hz)

theorem execRequestSendFromHandler_keeps {b : State} {core s} (hs : Keeps b s) : KeepsR b (execRequestSendFromHandler core s) := by
  unfold execRequestSendFromHandler
  repeat' with_reducible
    first
    | assumption | apply KeepsR.next | apply handlerStep_keeps | split | intro _ | refine Keeps.of_mk ?_ rfl rfl | dsimp only

theorem execHandlerEnd_keeps {b : State} {core s} (hs : Keeps b s) : KeepsR b (execHandlerEnd core s) := by
  unfold execHandlerEnd
  repeat' with_reducible
    first
    | assumption | apply KeepsR.next | apply modMu_keeps | apply sendMsg_keeps | apply returnCredit_keeps | apply Keeps.ite
    | apply KeepsR.ite | split | intro _ | refine Keeps.of_mk ?_ rfl rfl | dsimp only

theorem endService_keeps {b : State} {s v} (hs : Keeps b s) : Keeps b (s.endService v) := by
  unfold State.endService
  repeat' with_reducible
    first
    | assumption | apply freeEntry_keeps | apply dropSoft_keeps | split | intro _ | refine Keeps.of_mk ?_ rfl rfl | dsimp only

theorem nakService_keeps {b : State} {s v stat} (hs : Keeps b s) : Keeps b (s.nakService v stat) := by
  unfold State.nakService
  repeat' with_reducible
    first
    | assumption | apply sendMsg_keeps | apply endService_keeps | split | intro _ | refine Keeps.of_mk ?_ rfl rfl | dsimp only

theorem failService_keeps {b : State} {s v stat} (hs : Keeps b s) : Keeps b (s.failService v stat) := by
  unfold State.failService
  repeat' with_reducible
    first
    | assumption | apply endService_keeps | apply nakService_keeps | apply Keeps.ite | split | intro _ | refine Keeps.of_mk ?_ rfl rfl
    | dsimp only

theorem setService_keeps {b : State} {s v w} (hs : Keeps b s) : Keeps b (s.setService v w) := by
  unfold State.setService
  repeat' with_reducible
    first
    | assumption | apply Keeps.ite | split | intro _ | refine Keeps.of_mk ?_ rfl rfl | dsimp only

theorem accept_keeps {b : State} {s v w} (hs : Keeps b s) : Keeps b (s.accept v w) := by
  unfold State.accept
  repeat' with_reducible
    first
    | assumption | apply freeReply_keeps | apply setService_keeps | apply Keeps.ite | split | intro _ | refine Keeps.of_mk ?_ rfl rfl
    | dsimp only

theorem execManagerForward_keeps {b : State} {n port s} (hs : Keeps b s) : KeepsR b (execManagerForward n port s) := by
  unfold execManagerForward
  repeat' with_reducible
    first
    | assumption | apply KeepsR.next | apply modPort_keeps | apply queueSlot_keeps | apply nakService_keeps | apply Keeps.ite
    | apply KeepsR.ite | split | intro _ | refine Keeps.of_mk ?_ rfl rfl | dsimp only

theorem execUndefinedServiceRequest_keeps {b : State} {n s} (hs : Keeps b s) : KeepsR b (execUndefinedServiceRequest n s) := by
  unfold execUndefinedServiceRequest
  repeat' with_reducible
    first
    | assumption | apply KeepsR.next | apply nakService_keeps | split | intro _ | refine Keeps.of_mk ?_ rfl rfl | dsimp only

theorem serviceDone_keeps {b : State} {s v} (hs : Keeps b s) : Keeps b (s.serviceDone v) := by
  unfold State.serviceDone
  repeat' with_reducible
    first
    | assumption | apply sendMsg_keeps | apply endService_keeps | apply Keeps.ite | split | intro _ | refine Keeps.of_mk ?_ rfl rfl
    | dsimp only

theorem soutEnd_keeps {b : State} {s v} (hs : Keeps b s) : Keeps b (s.soutEnd v) := by
  unfold State.soutEnd
  repeat' with_reducible
    first
    | assumption | apply emit_keeps | apply modSession_keeps | apply complete_keeps | apply dropDone_keeps | apply failService_keeps
    | apply serviceDone_keeps | apply Keeps.ite | split | intro _ | refine Keeps.of_mk ?_ rfl rfl | dsimp only

theorem execSout_keeps {b : State} {n errs s} (hs : Keeps b s) : KeepsR b (execSout n errs s) := by
  unfold execSout
  generalize s.serviceAt n _ = o
  cases o with
  | none => exact KeepsR.next hs
  | some v =>
    exact KeepsR.ite (KeepsR.next (soutEnd_keeps hs)) (KeepsR.ite (KeepsR.next (nakService_keeps hs))
      (KeepsR.next (soutEnd_keeps (startSoft_keeps (accept_keeps hs)))))

theorem moved_keeps {b : State} {s v k} (hs : Keeps b s) : Keeps b (s.moved v k) := by
  unfold State.moved
  repeat' with_reducible
    first
    | assumption | apply setService_keeps | split | intro _ | refine Keeps.of_mk ?_ rfl rfl | dsimp only

theorem startMove_keeps {b : State} {s v} (hs : Keeps b s) : Keeps b (s.startMove v) := by
  unfold State.startMove
  repeat' with_reducible
    first
    | assumption | apply nakService_keeps | apply accept_keeps | apply Keeps.ite | split | intro _ | refine Keeps.of_mk ?_ rfl rfl
    | dsimp only

theorem startPart_keeps {b : State} {s v get x todo errs} (hs : Keeps b s) : Keeps b (s.startPart v get x todo errs) := by
  unfold State.startPart
  repeat' with_reducible
    first
    | assumption | apply startSoft_keeps | apply failService_keeps | apply Keeps.ite | split | intro _ | refine Keeps.of_mk ?_ rfl rfl
    | dsimp only

theorem sendPart_keeps {b : State} {s v x stype data} (hs : Keeps b s) : Keeps b (s.sendPart v x stype data) := by
  unfold State.sendPart
  repeat' with_reducible
    first
    | assumption | apply sendSlot_keeps | apply setService_keeps | refine Keeps.foldl (fun _ _ _ => ?_) _ _ ?_ | split | intro _
    | refine Keeps.of_mk ?_ rfl rfl | dsimp only

theorem answered_keeps {b : State} {s v a go} (hgo : ∀ l, Keeps b (go l)) (hs : Keeps b s) : Keeps b (s.answered v a go) := by
  cases a <;> unfold State.answered
  all_goals first
    | exact hs
    | exact hgo _
    | exact failService_keeps hs

theorem partStart_keeps {b : State} {s v get x remote errs} (hs : Keeps b s) : Keeps b (s.partStart v get x remote errs) := by
  unfold State.partStart
  refine Keeps.ite hs (Keeps.ite (startPart_keeps hs) (Keeps.ite (Keeps.ite (sendPart_keeps hs) (answered_keeps (fun l => ?_) hs))
    (Keeps.ite (startPart_keeps hs) (answered_keeps (fun l => ?_) hs))))
  · exact Keeps.ite (startPart_keeps hs) hs
  · exact Keeps.ite (moved_keeps hs) hs

theorem partEnd_keeps {b : State} {s v get x} (hs : Keeps b s) : Keeps b (s.partEnd v get x) := by
  unfold State.partEnd
  generalize s.softEnded (.service v.req) = o
  cases o with
  | none => exact hs
  | some j =>
    have h := dropDone_keeps (j := j) hs
    exact Keeps.ite (failService_keeps h) (Keeps.ite (sendPart_keeps h) (moved_keeps h))

theorem moveStep_keeps {b : State} {n hnd remote errs s} (hs : Keeps b s) : KeepsR b (moveStep n hnd remote errs s) := by
  unfold moveStep
  generalize s.serviceAt n _ = o
  cases o with
  | none => exact KeepsR.next hs
  | some v =>
    refine KeepsR.ite (KeepsR.next (startMove_keeps hs)) (KeepsR.ite (KeepsR.next hs) ?_)
    generalize s.movePart v = q
    cases q with
    | none => exact KeepsR.next (failService_keeps hs)
    | some x => exact KeepsR.next (partEnd_keeps (partStart_keeps hs))

theorem execOtget_keeps {b : State} {n remote errs s} (hs : Keeps b s) : KeepsR b (execOtget n remote errs s) := by
  unfold execOtget
  repeat' with_reducible
    first
    | assumption | apply KeepsR.next | apply moveStep_keeps | split | intro _ | refine Keeps.of_mk ?_ rfl rfl | dsimp only

theorem execOtput_keeps {b : State} {n remote errs s} (hs : Keeps b s) : KeepsR b (execOtput n remote errs s) := by
  unfold execOtput
  repeat' with_reducible
    first
    | assumption | apply KeepsR.next | apply moveStep_keeps | split | intro _ | refine Keeps.of_mk ?_ rfl rfl | dsimp only

theorem execOtMoveDone_keeps {b : State} {n s} (hs : Keeps b s) : KeepsR b (execOtMoveDone n s) := by
  unfold execOtMoveDone
  generalize s.serviceAt n _ = o
  cases o with
  | none => exact KeepsR.next hs
  | some v => exact KeepsR.ite (KeepsR.next (serviceDone_keeps hs)) (KeepsR.next hs)

theorem stopTold_keeps {b : State} {s p} (hs : Keeps b s) : Keeps b (s.stopTold p) := by
  unfold State.stopTold
  repeat' with_reducible
    first
    | assumption | apply raise_keeps | apply stopPart_keeps | apply Keeps.ite | split | intro _ | refine Keeps.of_mk ?_ rfl rfl | dsimp only

theorem stopAll_keeps {b : State} {s} (hs : Keeps b s) : Keeps b (s.stopAll) := by
  unfold State.stopAll
  repeat' with_reducible
    first
    | assumption | apply modPart_keeps | apply release_keeps | apply stopTold_keeps | refine Keeps.foldl (fun _ _ _ => ?_) _ _ ?_ | split
    | intro _ | refine Keeps.of_mk ?_ rfl rfl | dsimp only

theorem stopAcross_keeps {b : State} {s p} (hs : Keeps b s) : Keeps b (s.stopAcross p) := by
  unfold State.stopAcross
  repeat' with_reducible
    first
    | assumption | apply modPart_keeps | apply stopTold_keeps | apply Keeps.ite | split | intro _ | refine Keeps.of_mk ?_ rfl rfl
    | dsimp only

theorem stopAllAcross_keeps {b : State} {s} (hs : Keeps b s) : Keeps b (s.stopAllAcross) := by
  unfold State.stopAllAcross
  repeat' with_reducible
    first
    | assumption | apply modPart_keeps | apply release_keeps | apply stopAll_keeps | refine Keeps.foldl (fun _ _ _ => ?_) _ _ ?_
    | apply Keeps.ite | split | intro _ | refine Keeps.of_mk ?_ rfl rfl | dsimp only

theorem waitedStops_keeps {b : State} {s} (hs : Keeps b s) : Keeps b (s.waitedStops) := by
  unfold State.waitedStops
  repeat' with_reducible
    first
    | assumption | apply modPart_keeps | apply stopTold_keeps | refine Keeps.foldl (fun _ _ _ => ?_) _ _ ?_ | apply Keeps.ite | split
    | intro _ | refine Keeps.of_mk ?_ rfl rfl | dsimp only

theorem toAsker_keeps {b : State} {s u m} (hs : Keeps b s) : Keeps b (s.toAsker u m) := by
  unfold State.toAsker
  repeat' with_reducible
    first
    | assumption | apply modMu_keeps | apply sendMsg_keeps | apply Keeps.ite | split | intro _ | refine Keeps.of_mk ?_ rfl rfl | dsimp only

theorem lostCredit_keeps {b : State} {s n m} (hs : Keeps b s) : Keeps b (s.lostCredit n m) := by
  unfold State.lostCredit
  repeat' with_reducible
    first
    | assumption | apply modPort_keeps | apply oweCredit_keeps | split | intro _ | refine Keeps.of_mk ?_ rfl rfl | dsimp only

theorem lostRequest_keeps {b : State} {s n x} (hs : Keeps b s) : Keeps b (s.lostRequest n x) := by
  unfold State.lostRequest
  repeat' with_reducible
    first
    | assumption | apply modPort_keeps | apply sendSlot_keeps | apply toAsker_keeps | apply lostCredit_keeps | apply Keeps.ite | split
    | intro _ | refine Keeps.of_mk ?_ rfl rfl | dsimp only

theorem staleRequest_keeps {b : State} {s n acked m} (hs : Keeps b s) : Keeps b (s.staleRequest n acked m) := by
  unfold State.staleRequest
  repeat' with_reducible
    first
    | assumption | apply oweCredit_keeps | apply returnCredit_keeps | apply sendSlot_keeps | apply Keeps.ite | split | intro _
    | refine Keeps.of_mk ?_ rfl rfl | dsimp only

theorem dropReceived_keeps {b : State} {s n} (hs : Keeps b s) : Keeps b (s.dropReceived n) := by
  unfold State.dropReceived
  repeat' with_reducible
    first
    | assumption | apply modPort_keeps | apply staleRequest_keeps | refine Keeps.foldl (fun _ _ _ => ?_) _ _ ?_ | split | intro _
    | refine Keeps.of_mk ?_ rfl rfl | dsimp only

theorem lostMoves_keeps {b : State} {s n vs} (hs : Keeps b s) : Keeps b (s.lostMoves n vs) := by
  unfold State.lostMoves
  repeat' with_reducible
    first
    | assumption | apply modPort_keeps | apply failService_keeps | refine Keeps.foldl (fun _ _ _ => ?_) _ _ ?_ | apply Keeps.ite | split
    | intro _ | refine Keeps.of_mk ?_ rfl rfl | dsimp only

theorem freshStreams_keeps {b : State} {s} (hs : Keeps b s) : Keeps b (s.freshStreams) := by
  unfold State.freshStreams
  repeat' with_reducible
    first
    | assumption | apply Keeps.ite | split | intro _ | refine Keeps.of_mk ?_ rfl rfl | dsimp only

theorem linkReset_keeps {b : State} {s n cause} (hs : Keeps b s) : Keeps b (s.linkReset n cause) := by
  unfold State.linkReset
  repeat' with_reducible
    first
    | assumption | apply raise_keeps | apply event_keeps | apply modPort_keeps | apply lostRequest_keeps | apply dropReceived_keeps
    | apply lostMoves_keeps | apply freshStreams_keeps | refine Keeps.foldl (fun _ _ _ => ?_) _ _ ?_ | apply Keeps.ite | split | intro _
    | refine Keeps.of_mk ?_ rfl rfl | dsimp only

theorem linksReset_keeps {b : State} {s cause} (hs : Keeps b s) : Keeps b (s.linksReset cause) := by
  unfold State.linksReset
  repeat' with_reducible
    first
    | assumption | apply linkReset_keeps | refine Keeps.foldl (fun _ _ _ => ?_) _ _ ?_ | split | intro _ | refine Keeps.of_mk ?_ rfl rfl
    | dsimp only

theorem wipeSpans_keeps {b : State} {s l} (hs : Keeps b s) : Keeps b (s.wipeSpans l) := by
  unfold State.wipeSpans
  exact ⟨hs.pending, hs.grade, fun k => memWipes_wf l (hs.mem k), fun k => hs.store k, hs.lcs⟩

theorem clearChannels_keeps {b : State} {s p} (hs : Keeps b s) : Keeps b (s.clearChannels p) := by
  unfold State.clearChannels
  repeat' with_reducible
    first
    | assumption | apply Keeps.ite | split | intro _ | refine Keeps.of_mk ?_ rfl rfl | dsimp only

theorem cutOff_keeps {b : State} {s p} (hs : Keeps b s) : Keeps b (s.cutOff p) := by
  unfold State.cutOff
  repeat' with_reducible
    first
    | assumption | apply modPort_keeps | apply dropSoft_keeps | apply asizeDone_keeps | apply endService_keeps | apply failService_keeps
    | refine Keeps.foldl (fun _ _ _ => ?_) _ _ ?_ | apply Keeps.ite | split | intro _ | refine Keeps.of_mk ?_ rfl rfl | dsimp only

theorem startPartitionReset_keeps {b : State} {s p} (hs : Keeps b s) : Keeps b (s.startPartitionReset p) := by
  unfold State.startPartitionReset
  repeat' with_reducible
    first
    | assumption | apply modCore_keeps | apply modPart_keeps | apply abandonPart_keeps | apply release_keeps | apply stopTold_keeps
    | apply wipeSpans_keeps | apply clearChannels_keeps | apply cutOff_keeps | refine Keeps.foldl (fun _ _ _ => ?_) _ _ ?_ | split | intro _
    | refine Keeps.of_mk ?_ rfl rfl | dsimp only

theorem partitionReset_keeps {b : State} {s p} (hs : Keeps b s) : Keeps b (s.partitionReset p) := by
  unfold State.partitionReset
  repeat' with_reducible
    first
    | assumption | apply modPart_keeps | apply startPartitionReset_keeps | apply Keeps.ite | split | intro _ | refine Keeps.of_mk ?_ rfl rfl
    | dsimp only

theorem waitedResets_keeps {b : State} {s} (hs : Keeps b s) : Keeps b (s.waitedResets) := by
  unfold State.waitedResets
  repeat' with_reducible
    first
    | assumption | apply startPartitionReset_keeps | refine Keeps.foldl (fun _ _ _ => ?_) _ _ ?_ | apply Keeps.ite | split | intro _
    | refine Keeps.of_mk ?_ rfl rfl | dsimp only

theorem computeReset_keeps {b : State} {s} (hs : Keeps b s) : Keeps b (s.computeReset) := by
  unfold State.computeReset
  exact ⟨hs.pending, hs.grade, fun _ => rfl, fun k => hs.store k, hs.lcs⟩

theorem enterWarm_keeps {b : State} {s cause} (hs : Keeps b s) : Keeps b (s.enterWarm cause) := by
  unfold State.enterWarm
  repeat' with_reducible
    first
    | assumption | apply coreRail_keeps | apply stopAll_keeps | apply linksReset_keeps | apply computeReset_keeps | split | intro _
    | refine Keeps.of_mk ?_ rfl rfl | dsimp only

theorem warmReset_keeps {b : State} {s cause} (hs : Keeps b s) : Keeps b (s.warmReset cause) := by
  unfold State.warmReset
  repeat' with_reducible
    first
    | assumption | apply enterWarm_keeps | apply Keeps.ite | split | intro _ | refine Keeps.of_mk ?_ rfl rfl | dsimp only

theorem powerDown_keeps {b : State} {s next cause} (hs : Keeps b s) : Keeps b (s.powerDown next cause) := by
  unfold State.powerDown
  repeat' with_reducible
    first
    | assumption | apply railsOff_keeps | apply computeReset_keeps | apply Keeps.ite | split | intro _ | refine Keeps.of_mk ?_ rfl rfl
    | dsimp only

theorem shutdown_keeps {b : State} {s next cause sensor} (hs : Keeps b s) : Keeps b (s.shutdown next cause sensor) := by
  unfold State.shutdown
  repeat' with_reducible
    first
    | assumption | apply event_keeps | apply powerDown_keeps | apply Keeps.ite | split | intro _ | refine Keeps.of_mk ?_ rfl rfl
    | dsimp only

theorem alarm_keeps {b : State} {s t} (hs : Keeps b s) : Keeps b (s.alarm t) := by
  unfold State.alarm
  repeat' with_reducible
    first
    | assumption | apply event_keeps | apply stopAll_keeps | apply warmReset_keeps | apply Keeps.ite | split | intro _
    | refine Keeps.of_mk ?_ rfl rfl | dsimp only

theorem refuse_keeps {b : State} {s cmd stage code pmask digest} (hs : Keeps b s) : Keeps b (s.refuse cmd stage code pmask digest) := by
  unfold State.refuse
  repeat' with_reducible
    first
    | assumption | apply event_keeps | apply asizeDone_keeps | split | intro _ | refine Keeps.of_mk ?_ rfl rfl | dsimp only

theorem sigFailure_keeps {b : State} {s cmd m} (hs : Keeps b s) : Keeps b (s.sigFailure cmd m) := by
  unfold State.sigFailure
  repeat' with_reducible
    first
    | assumption | apply event_keeps | apply asizeDone_keeps | apply alarm_keeps | apply Keeps.ite | split | intro _
    | refine Keeps.of_mk ?_ rfl rfl | dsimp only

theorem startImage_keeps {b : State} {s req cmd} (hs : Keeps b s) : Keeps b (s.startImage req cmd) := by
  unfold State.startImage
  repeat' with_reducible
    first
    | assumption | apply emit_keeps | split | intro _ | refine Keeps.of_mk ?_ rfl rfl | dsimp only

theorem storeMask_keeps {b : State} {s req pmask} (hs : Keeps b s) : Keeps b (s.storeMask req pmask) := by
  unfold State.storeMask
  repeat' with_reducible
    first
    | assumption | apply Keeps.ite | split | intro _ | refine Keeps.of_mk ?_ rfl rfl | dsimp only

theorem checkImage_keeps {b : State} {s req cmd m pmask go} (hgo : ∀ z, Keeps b z → Keeps b (go z)) (hs : Keeps b s) :
    Keeps b (s.checkImage req cmd m pmask go) := by
  unfold State.checkImage
  repeat' with_reducible
    first
    | assumption | apply hgo | apply errorTo_keeps | apply refuse_keeps | apply sigFailure_keeps | apply storeMask_keeps | apply Keeps.ite
    | split | intro _ | refine Keeps.of_mk ?_ rfl rfl | dsimp only

theorem loadCmd_keeps {b : State} {s req img pmask} (hs : Keeps b s) : Keeps b (s.loadCmd req img pmask) := by
  unfold State.loadCmd
  repeat' with_reducible
    first
    | assumption | apply checkImage_keeps | split | intro _ | refine Keeps.of_mk ?_ rfl rfl | dsimp only

theorem execLoad_keeps {b : State} {req img pmask s} (hs : Keeps b s) : KeepsR b (execLoad req img pmask s) := by
  unfold execLoad
  repeat' with_reducible
    first
    | assumption | apply KeepsR.next | apply loadCmd_keeps | split | intro _ | refine Keeps.of_mk ?_ rfl rfl | dsimp only

theorem clampChange_keeps {b : State} {s} (hs : Keeps b s) : Keeps b (s.clampChange) := by
  unfold State.clampChange
  repeat' with_reducible
    first
    | assumption | apply Keeps.ite | split | intro _ | refine Keeps.of_mk ?_ rfl rfl | dsimp only

theorem enterEnvelope_keeps {b : State} {s} (hs : Keeps b s) : Keeps b (s.enterEnvelope) := by
  unfold State.enterEnvelope
  repeat' with_reducible
    first
    | assumption | apply coreRail_keeps | apply clampChange_keeps | apply Keeps.ite | split | intro _ | refine Keeps.of_mk ?_ rfl rfl
    | dsimp only

theorem applyPorts_keeps {b : State} {s fab} (hs : Keeps b s) : Keeps b (s.applyPorts fab) := by
  unfold State.applyPorts
  repeat' with_reducible
    first
    | assumption | apply raise_keeps | apply modPort_keeps | refine Keeps.foldl (fun _ _ _ => ?_) _ _ ?_ | apply Keeps.ite | split | intro _
    | refine Keeps.of_mk ?_ rfl rfl | dsimp only

theorem applyDie_keeps {b : State} {s m} (hs : Keeps b s) : Keeps b (s.applyDie m) := by
  unfold State.applyDie
  repeat' with_reducible
    first
    | assumption | apply enterEnvelope_keeps | apply applyPorts_keeps | apply Keeps.ite | split | intro _ | refine Keeps.of_mk ?_ rfl rfl
    | dsimp only

theorem fillGranules_keeps {b : State} {s c new} (hs : Keeps b s) : Keeps b (s.fillGranules c new) := by
  unfold State.fillGranules
  repeat' with_reducible
    first
    | assumption | apply modCfg_keeps | apply wipeSpans_keeps | split | intro _ | refine Keeps.of_mk ?_ rfl rfl | dsimp only

theorem applyCores_keeps {b : State} {s m} (hs : Keeps b s) : Keeps b (s.applyCores m) := by
  unfold State.applyCores
  repeat' with_reducible
    first
    | assumption | apply modCore_keeps | apply fillGranules_keeps | refine Keeps.foldl (fun _ _ _ => ?_) _ _ ?_ | apply Keeps.ite | split
    | intro _ | refine Keeps.of_mk ?_ rfl rfl | dsimp only

theorem applyCode_keeps {b : State} {s m} (hs : Keeps b s) : Keeps b (s.applyCode m) := by
  unfold State.applyCode
  repeat' with_reducible
    first
    | assumption | apply writeNow_keeps | refine Keeps.foldl (fun _ _ _ => ?_) _ _ ?_ | split | intro _ | refine Keeps.of_mk ?_ rfl rfl
    | dsimp only

theorem applyStates_keeps {b : State} {s m} (hs : Keeps b s) : Keeps b (s.applyStates m) := by
  unfold State.applyStates
  repeat' with_reducible
    first
    | assumption | apply modPart_keeps | apply release_keeps | refine Keeps.foldl (fun _ _ _ => ?_) _ _ ?_ | apply Keeps.ite | split
    | intro _ | refine Keeps.of_mk ?_ rfl rfl | dsimp only

theorem abandonAffected_keeps {b : State} {s m} (hs : Keeps b s) : Keeps b (s.abandonAffected m) := by
  unfold State.abandonAffected
  repeat' with_reducible
    first
    | assumption | apply abandonPart_keeps | refine Keeps.foldl (fun _ _ _ => ?_) _ _ ?_ | apply Keeps.ite | split | intro _
    | refine Keeps.of_mk ?_ rfl rfl | dsimp only

theorem applyImage_keeps {b : State} {s m} (hs : Keeps b s) : Keeps b (s.applyImage m) := by
  unfold State.applyImage
  repeat' with_reducible
    first
    | assumption | apply applyDie_keeps | apply applyCores_keeps | apply applyCode_keeps | apply applyStates_keeps
    | apply abandonAffected_keeps | split | intro _ | refine Keeps.of_mk ?_ rfl rfl | dsimp only

theorem spoilLoad_keeps {b : State} {s m} (hs : Keeps b s) : Keeps b (s.spoilLoad m) := by
  unfold State.spoilLoad
  repeat' with_reducible
    first
    | assumption | apply modCore_keeps | apply modPart_keeps | apply abandonPart_keeps | apply release_keeps | apply wipeSpans_keeps
    | refine Keeps.foldl (fun _ _ _ => ?_) _ _ ?_ | apply Keeps.ite | split | intro _ | refine Keeps.of_mk ?_ rfl rfl | dsimp only

theorem execAssizeApply_keeps {b : State} {img s} (hs : Keeps b s) : KeepsR b (execAssizeApply img s) := by
  unfold execAssizeApply
  repeat' with_reducible
    first
    | assumption | apply KeepsR.next | apply asizeDone_keeps | apply refuse_keeps | apply applyImage_keeps | apply spoilLoad_keeps
    | apply Keeps.ite | apply KeepsR.ite | split | intro _ | refine Keeps.of_mk ?_ rfl rfl | dsimp only

theorem onParts_keeps {b : State} {s cmd req pmask go} (hgo : ∀ z, Keeps b z → Keeps b (go z)) (hs : Keeps b s) :
    Keeps b (s.onParts cmd req pmask go) := by
  unfold State.onParts
  repeat' with_reducible
    first
    | assumption | apply hgo | apply errorTo_keeps | apply storeMask_keeps | apply Keeps.ite | split | intro _
    | refine Keeps.of_mk ?_ rfl rfl | dsimp only

theorem emptyHeader_keeps {b : State} {s p sl half} (hs : Keeps b s) : Keeps b (s.emptyHeader p sl half) := by
  unfold State.emptyHeader
  repeat' with_reducible
    first
    | assumption | apply putLine_keeps | apply rrWrite_keeps | split | intro _ | refine Keeps.of_mk ?_ rfl rfl | dsimp only

theorem emptySlots_keeps {b : State} {s p} (hs : Keeps b s) : Keeps b (s.emptySlots p) := by
  unfold State.emptySlots
  repeat' with_reducible
    first
    | assumption | apply emptyHeader_keeps | refine Keeps.foldl (fun _ _ _ => ?_) _ _ ?_ | apply Keeps.ite | split | intro _
    | refine Keeps.of_mk ?_ rfl rfl | dsimp only

theorem prepare_keeps {b : State} {s p} (hs : Keeps b s) : Keeps b (s.prepare p) := by
  unfold State.prepare
  repeat' with_reducible
    first
    | assumption | apply modCore_keeps | apply modPart_keeps | apply abandonPart_keeps | apply release_keeps
    | refine Keeps.foldl (fun _ _ _ => ?_) _ _ ?_ | split | intro _ | refine Keeps.of_mk ?_ rfl rfl | dsimp only

theorem releaseNow_keeps {b : State} {s req pmask} (hs : Keeps b s) : Keeps b (s.releaseNow req pmask) := by
  unfold State.releaseNow
  repeat' with_reducible
    first
    | assumption | apply errorTo_keeps | apply asizeDone_keeps | apply refuse_keeps | apply prepare_keeps
    | refine Keeps.foldl (fun _ _ _ => ?_) _ _ ?_ | apply Keeps.ite | split | intro _ | refine Keeps.of_mk ?_ rfl rfl | dsimp only

theorem releaseCmd_keeps {b : State} {s req pmask} (hs : Keeps b s) : Keeps b (s.releaseCmd req pmask) := by
  unfold State.releaseCmd
  repeat' with_reducible
    first
    | assumption | apply onParts_keeps | apply releaseNow_keeps | split | intro _ | refine Keeps.of_mk ?_ rfl rfl | dsimp only

theorem execRelease_keeps {b : State} {req pmask s} (hs : Keeps b s) : KeepsR b (execRelease req pmask s) := by
  unfold execRelease
  repeat' with_reducible
    first
    | assumption | apply KeepsR.next | apply releaseCmd_keeps | split | intro _ | refine Keeps.of_mk ?_ rfl rfl | dsimp only

theorem requestChange_keeps {b : State} {s target} (hs : Keeps b s) : Keeps b (s.requestChange target) := by
  unfold State.requestChange
  repeat' with_reducible
    first
    | assumption | apply Keeps.ite | split | intro _ | refine Keeps.of_mk ?_ rfl rfl | dsimp only

theorem moveTo_keeps {b : State} {s mhz} (hs : Keeps b s) : Keeps b (s.moveTo mhz) := by
  unfold State.moveTo
  repeat' with_reducible
    first
    | assumption | split | intro _ | refine Keeps.of_mk ?_ rfl rfl | dsimp only

theorem releaseSet_keeps {b : State} {s mhz} (hs : Keeps b s) : Keeps b (s.releaseSet mhz) := by
  unfold State.releaseSet
  repeat' with_reducible
    first
    | assumption | apply requestChange_keeps | apply moveTo_keeps | apply Keeps.ite | split | intro _ | refine Keeps.of_mk ?_ rfl rfl
    | dsimp only

theorem releaseRail_keeps {b : State} {s} (hs : Keeps b s) : Keeps b (s.releaseRail) := by
  unfold State.releaseRail
  repeat' with_reducible
    first
    | assumption | apply coreRail_keeps | apply Keeps.ite | split | intro _ | refine Keeps.of_mk ?_ rfl rfl | dsimp only

theorem execReleaseCycle_keeps {b : State} {p s} (hs : Keeps b s) : KeepsR b (execReleaseCycle p s) := by
  unfold execReleaseCycle
  repeat' with_reducible
    first
    | assumption | apply KeepsR.next | apply modPart_keeps | apply modCtl_keeps | apply rrNote_keeps | apply releaseRefresh_keeps
    | apply release_keeps | apply takeScript_keeps | apply emptySlots_keeps | apply releaseSet_keeps | apply releaseRail_keeps
    | refine Keeps.foldl (fun _ _ _ => ?_) _ _ ?_ | apply Keeps.ite | apply KeepsR.ite | split | intro _ | refine Keeps.of_mk ?_ rfl rfl
    | dsimp only

theorem stopNow_keeps {b : State} {s pmask} (hs : Keeps b s) : Keeps b (s.stopNow pmask) := by
  unfold State.stopNow
  repeat' with_reducible
    first
    | assumption | apply asizeDone_keeps | apply stopTold_keeps | refine Keeps.foldl (fun _ _ _ => ?_) _ _ ?_ | apply Keeps.ite | split
    | intro _ | refine Keeps.of_mk ?_ rfl rfl | dsimp only

theorem stopCmd_keeps {b : State} {s req pmask} (hs : Keeps b s) : Keeps b (s.stopCmd req pmask) := by
  unfold State.stopCmd
  repeat' with_reducible
    first
    | assumption | apply onParts_keeps | apply stopNow_keeps | split | intro _ | refine Keeps.of_mk ?_ rfl rfl | dsimp only

theorem execStop_keeps {b : State} {req pmask s} (hs : Keeps b s) : KeepsR b (execStop req pmask s) := by
  unfold execStop
  repeat' with_reducible
    first
    | assumption | apply KeepsR.next | apply stopCmd_keeps | split | intro _ | refine Keeps.of_mk ?_ rfl rfl | dsimp only

theorem armTxn_keeps {b : State} {s m} (hs : Keeps b s) : Keeps b (s.armTxn m) := by
  unfold State.armTxn
  generalize allParts.find? (imgAffects m) = o
  cases o with
  | none => exact asizeDone_keeps hs
  | some p =>
    dsimp only
    generalize imgPart m 10 p = q
    cases q with
    | none => exact asizeDone_keeps hs
    | some x =>
      dsimp only
      refine startSoft_keeps (Keeps.of_mk (Keeps.foldl (fun _ _ h => modCfg_keeps h) _ _ hs) rfl rfl)

theorem armCmd_keeps {b : State} {s req img pmask} (hs : Keeps b s) : Keeps b (s.armCmd req img pmask) := by
  unfold State.armCmd
  repeat' with_reducible
    first
    | assumption | apply checkImage_keeps | apply armTxn_keeps | split | intro _ | refine Keeps.of_mk ?_ rfl rfl | dsimp only

theorem execArm_keeps {b : State} {req img pmask s} (hs : Keeps b s) : KeepsR b (execArm req img pmask s) := by
  unfold execArm
  repeat' with_reducible
    first
    | assumption | apply KeepsR.next | apply armCmd_keeps | split | intro _ | refine Keeps.of_mk ?_ rfl rfl | dsimp only

theorem cancelNow_keeps {b : State} {s pmask} (hs : Keeps b s) : Keeps b (s.cancelNow pmask) := by
  unfold State.cancelNow
  repeat' with_reducible
    first
    | assumption | apply txnOutcome_keeps | apply asizeDone_keeps | refine Keeps.foldl (fun _ _ _ => ?_) _ _ ?_ | apply Keeps.ite | split
    | intro _ | refine Keeps.of_mk ?_ rfl rfl | dsimp only

theorem cancelCmd_keeps {b : State} {s req pmask} (hs : Keeps b s) : Keeps b (s.cancelCmd req pmask) := by
  unfold State.cancelCmd
  repeat' with_reducible
    first
    | assumption | apply onParts_keeps | apply cancelNow_keeps | split | intro _ | refine Keeps.of_mk ?_ rfl rfl | dsimp only

theorem resumeCmd_keeps {b : State} {s} (hs : Keeps b s) : Keeps b (s.resumeCmd) := by
  unfold State.resumeCmd
  repeat' with_reducible
    first
    | assumption | apply releaseNow_keeps | apply stopNow_keeps | apply cancelNow_keeps | split | intro _ | refine Keeps.of_mk ?_ rfl rfl
    | dsimp only

theorem execCancel_keeps {b : State} {req pmask s} (hs : Keeps b s) : KeepsR b (execCancel req pmask s) := by
  unfold execCancel
  repeat' with_reducible
    first
    | assumption | apply KeepsR.next | apply cancelCmd_keeps | split | intro _ | refine Keeps.of_mk ?_ rfl rfl | dsimp only

theorem windowDrop_keeps {b : State} {s dev} (hs : Keeps b s) : Keeps b (s.windowDrop dev) := by
  unfold State.windowDrop
  repeat' with_reducible
    first
    | assumption | apply event_keeps | split | intro _ | refine Keeps.of_mk ?_ rfl rfl | dsimp only

theorem windowAccess_keeps {b : State} {s dev acc errs} (hs : Keeps b s) : Keeps b (s.windowAccess dev acc errs) := by
  unfold State.windowAccess
  repeat' with_reducible
    first
    | assumption | apply emit_keeps | apply startSoft_keeps | apply windowDrop_keeps | apply Keeps.ite | split | intro _
    | refine Keeps.of_mk ?_ rfl rfl | dsimp only

theorem execBar2Access_keeps {b : State} {off acc errs s} (hs : Keeps b s) : KeepsR b (execBar2Access off acc errs s) := by
  unfold execBar2Access
  repeat' with_reducible
    first
    | assumption | apply KeepsR.next | apply windowAccess_keeps | split | intro _ | refine Keeps.of_mk ?_ rfl rfl | dsimp only

theorem execBar4Access_keeps {b : State} {off acc errs s} (hs : Keeps b s) : KeepsR b (execBar4Access off acc errs s) := by
  unfold execBar4Access
  repeat' with_reducible
    first
    | assumption | apply KeepsR.next | apply windowAccess_keeps | split | intro _ | refine Keeps.of_mk ?_ rfl rfl | dsimp only

theorem freeAsked_keeps {b : State} {s a} (hs : Keeps b s) : Keeps b (s.freeAsked a) := by
  unfold State.freeAsked
  repeat' with_reducible
    first
    | assumption | apply freeReply_keeps | split | intro _ | refine Keeps.of_mk ?_ rfl rfl | dsimp only

theorem acknowledge_keeps {b : State} {s n seq} (hs : Keeps b s) : Keeps b (s.acknowledge n seq) := by
  unfold State.acknowledge
  repeat' with_reducible
    first
    | assumption | apply modPort_keeps | apply freeAsked_keeps | refine Keeps.foldl (fun _ _ _ => ?_) _ _ ?_ | apply Keeps.ite | split
    | intro _ | refine Keeps.of_mk ?_ rfl rfl | dsimp only

theorem startReplay_keeps {b : State} {s n} (hs : Keeps b s) : Keeps b (s.startReplay n) := by
  unfold State.startReplay
  repeat' with_reducible
    first
    | assumption | apply modPort_keeps | apply linkReset_keeps | apply Keeps.ite | split | intro _ | refine Keeps.of_mk ?_ rfl rfl
    | dsimp only

theorem leftQueue_keeps {b : State} {s key} (hs : Keeps b s) : Keeps b (s.leftQueue key) := by
  unfold State.leftQueue
  repeat' with_reducible
    first
    | assumption | apply take_keeps | apply freeAsked_keeps | refine Keeps.foldl (fun _ _ _ => ?_) _ _ ?_ | split | intro _
    | refine Keeps.of_mk ?_ rfl rfl | dsimp only

theorem creditBack_keeps {b : State} {s e} (hs : Keeps b s) : Keeps b (s.creditBack e) := by
  unfold State.creditBack
  repeat' with_reducible
    first
    | assumption | apply oweCredit_keeps | apply leftQueue_keeps | split | intro _ | refine Keeps.of_mk ?_ rfl rfl | dsimp only

theorem creditReturn_keeps {b : State} {s n kind count} (hs : Keeps b s) : Keeps b (s.creditReturn n kind count) := by
  unfold State.creditReturn
  repeat' with_reducible
    first
    | assumption | apply modPort_keeps | apply take_keeps | apply creditBack_keeps | refine Keeps.foldl (fun _ _ _ => ?_) _ _ ?_
    | apply Keeps.ite | split | intro _ | refine Keeps.of_mk ?_ rfl rfl | dsimp only

theorem notice_keeps {b : State} {s n epoch seq} (hs : Keeps b s) : Keeps b (s.notice n epoch seq) := by
  unfold State.notice
  repeat' with_reducible
    first
    | assumption | apply modPort_keeps | apply linkReset_keeps | apply Keeps.ite | split | intro _ | refine Keeps.of_mk ?_ rfl rfl
    | dsimp only

theorem flitHeader_keeps {b : State} {s n f} (hs : Keeps b s) : Keeps b (s.flitHeader n f) := by
  unfold State.flitHeader
  repeat' with_reducible
    first
    | assumption | apply modPort_keeps | apply acknowledge_keeps | apply startReplay_keeps | apply creditReturn_keeps | apply Keeps.ite
    | split | intro _ | refine Keeps.of_mk ?_ rfl rfl | dsimp only

theorem execFlitReceive_keeps {b : State} {port bytes crcOk s} (hs : Keeps b s) : KeepsR b (execFlitReceive port bytes crcOk s) := by
  unfold execFlitReceive
  repeat' with_reducible
    first
    | assumption | apply KeepsR.next | apply modPort_keeps | apply notice_keeps | apply flitHeader_keeps | apply Keeps.ite
    | apply KeepsR.ite | split | intro _ | refine Keeps.of_mk ?_ rfl rfl | dsimp only

theorem execAckTimeout_keeps {b : State} {port s} (hs : Keeps b s) : KeepsR b (execAckTimeout port s) := by
  unfold execAckTimeout
  repeat' with_reducible
    first
    | assumption | apply KeepsR.next | apply startReplay_keeps | apply Keeps.ite | apply KeepsR.ite | split | intro _
    | refine Keeps.of_mk ?_ rfl rfl | dsimp only

theorem execEpochNotice_keeps {b : State} {port s} (hs : Keeps b s) : KeepsR b (execEpochNotice port s) := by
  unfold execEpochNotice
  repeat' with_reducible
    first
    | assumption | apply KeepsR.next | apply notice_keeps | apply Keeps.ite | apply KeepsR.ite | split | intro _
    | refine Keeps.of_mk ?_ rfl rfl | dsimp only

theorem execLinkIdleTimeout_keeps {b : State} {port s} (hs : Keeps b s) : KeepsR b (execLinkIdleTimeout port s) := by
  unfold execLinkIdleTimeout
  repeat' with_reducible
    first
    | assumption | apply KeepsR.next | apply linkReset_keeps | apply Keeps.ite | apply KeepsR.ite | split | intro _
    | refine Keeps.of_mk ?_ rfl rfl | dsimp only

theorem execLinkRetrainDone_keeps {b : State} {port trained s} (hs : Keeps b s) : KeepsR b (execLinkRetrainDone port trained s) := by
  unfold execLinkRetrainDone
  repeat' with_reducible
    first
    | assumption | apply KeepsR.next | apply raise_keeps | apply modPort_keeps | apply Keeps.ite | apply KeepsR.ite | split | intro _
    | refine Keeps.of_mk ?_ rfl rfl | dsimp only

theorem sentOut_keeps {b : State} {s n l} (hs : Keeps b s) : Keeps b (s.sentOut n l) := by
  unfold State.sentOut
  repeat' with_reducible
    first
    | assumption | apply freeEntry_keeps | refine Keeps.foldl (fun _ _ _ => ?_) _ _ ?_ | split | intro _ | refine Keeps.of_mk ?_ rfl rfl
    | dsimp only

theorem sendFlit_keeps {b : State} {s n f after} (hs : Keeps b s) : Keeps b (s.sendFlit n f after) := by
  unfold State.sendFlit
  repeat' with_reducible
    first
    | assumption | apply emit_keeps | apply modPort_keeps | split | intro _ | refine Keeps.of_mk ?_ rfl rfl | dsimp only

theorem execFlitTransmit_keeps {b : State} {port s} (hs : Keeps b s) : KeepsR b (execFlitTransmit port s) := by
  unfold execFlitTransmit
  repeat' with_reducible
    first
    | assumption | apply KeepsR.next | apply take_keeps | apply sentOut_keeps | apply sendFlit_keeps | apply Keeps.ite | apply KeepsR.ite
    | split | intro _ | refine Keeps.of_mk ?_ rfl rfl | dsimp only

theorem dropSlot_keeps {b : State} {s n i x} (hs : Keeps b s) : Keeps b (s.dropSlot n i x) := by
  unfold State.dropSlot
  repeat' with_reducible
    first
    | assumption | apply modPort_keeps | apply nakSlot_keeps | split | intro _ | refine Keeps.of_mk ?_ rfl rfl | dsimp only

theorem withSlot_keeps {b : State} {s port type go} (hgo : ∀ i x, Keeps b (go i x)) (hs : Keeps b s) :
    KeepsR b (s.withSlot port type go) := by
  unfold State.withSlot
  generalize s.nextSlot port type = o
  cases o with
  | none => exact KeepsR.next hs
  | some x => exact KeepsR.next (Keeps.ite (dropSlot_keeps hs) (hgo _ _))

theorem inboundRequest_keeps {b : State} {s m} (hs : Keeps b s) : Keeps b (s.inboundRequest m) := by
  unfold State.inboundRequest
  repeat' with_reducible
    first
    | assumption | apply sendMsg_keeps | apply sendSlot_keeps | apply toService_keeps | apply Keeps.ite | split | intro _
    | refine Keeps.of_mk ?_ rfl rfl | dsimp only

theorem lostLines_keeps {b : State} {s m} (hs : Keeps b s) : Keeps b (s.lostLines m) := by
  unfold State.lostLines
  repeat' with_reducible
    first
    | assumption | apply failService_keeps | refine Keeps.foldl (fun _ _ _ => ?_) _ _ ?_ | split | intro _ | refine Keeps.of_mk ?_ rfl rfl
    | dsimp only

theorem inboundAnswer_keeps {b : State} {s m} (hs : Keeps b s) : Keeps b (s.inboundAnswer m) := by
  unfold State.inboundAnswer
  repeat' with_reducible
    first
    | assumption | apply toAsker_keeps | apply lostLines_keeps | apply Keeps.ite | split | intro _ | refine Keeps.of_mk ?_ rfl rfl
    | dsimp only

theorem inboundRefused_keeps {b : State} {s m} (hs : Keeps b s) : Keeps b (s.inboundRefused m) := by
  unfold State.inboundRefused
  repeat' with_reducible
    first
    | assumption | apply returnCredit_keeps | apply sendSlot_keeps | apply inboundAnswer_keeps | apply Keeps.ite | split | intro _
    | refine Keeps.of_mk ?_ rfl rfl | dsimp only

theorem weighed_keeps {b : State} {s act port go no} (hgo : ∀ z, Keeps b z → Keeps b (go z)) (hno : ∀ z, Keeps b z → Keeps b (no z)) (hs : Keeps b s) :
    Keeps b (s.weighed act port go no) := by
  unfold State.weighed
  repeat' with_reducible
    first
    | assumption | apply hgo | apply hno | apply meterSlot_keeps | refine meterSlot_keeps_eq (by assumption) ?_ | split | intro _
    | refine Keeps.of_mk ?_ rfl rfl | dsimp only

theorem passOn_keeps {b : State} {s port x} (hs : Keeps b s) : Keeps b (s.passOn port x) := by
  unfold State.passOn
  repeat' with_reducible
    first
    | assumption | apply modPort_keeps | apply Keeps.ite | split | intro _ | refine Keeps.of_mk ?_ rfl rfl | dsimp only

theorem execSlotMessage_keeps {b : State} {port s} (hs : Keeps b s) : KeepsR b (execSlotMessage port s) := by
  unfold execSlotMessage
  repeat' with_reducible
    first
    | assumption | apply KeepsR.next | apply returnCredit_keeps | apply sendSlot_keeps | apply popSlot_keeps | apply withSlot_keeps
    | apply inboundRequest_keeps | apply inboundAnswer_keeps | apply inboundRefused_keeps | apply weighed_keeps | apply passOn_keeps
    | apply Keeps.ite | apply KeepsR.ite | split | intro _ | refine Keeps.of_mk ?_ rfl rfl | dsimp only

theorem lineSlot_keeps {b : State} {port type act free move s} (hmove : ∀ z a1 a2, Keeps b z → Keeps b (move z a1 a2)) (hs : Keeps b s) :
    KeepsR b (lineSlot port type act free move s) := by
  unfold lineSlot
  repeat' with_reducible
    first
    | assumption | apply hmove | apply KeepsR.next | apply popSlot_keeps | apply nakSlot_keeps | apply withSlot_keeps | apply weighed_keeps
    | apply Keeps.ite | apply KeepsR.ite | split | intro _ | refine Keeps.of_mk ?_ rfl rfl | dsimp only

theorem execSlotLineWrite_keeps {b : State} {port s} (hs : Keeps b s) : KeepsR b (execSlotLineWrite port s) := by
  unfold execSlotLineWrite
  exact lineSlot_keeps (fun _ _ _ h => softWrite_keeps h) hs

theorem execSlotLineRead_keeps {b : State} {port ecc s} (hs : Keeps b s) : KeepsR b (execSlotLineRead port ecc s) := by
  unfold execSlotLineRead
  exact lineSlot_keeps (fun _ _ _ h => emit_keeps (softRead_keeps h)) hs

theorem execSlotBarrierArrival_keeps {b : State} {port s} (hs : Keeps b s) : KeepsR b (execSlotBarrierArrival port s) := by
  unfold execSlotBarrierArrival
  repeat' with_reducible
    first
    | assumption | apply KeepsR.next | apply popSlot_keeps | apply spanForward_keeps | apply withSlot_keeps | split | intro _
    | refine Keeps.of_mk ?_ rfl rfl | dsimp only

theorem execSlotBarrierCompletion_keeps {b : State} {port s} (hs : Keeps b s) : KeepsR b (execSlotBarrierCompletion port s) := by
  unfold execSlotBarrierCompletion
  repeat' with_reducible
    first
    | assumption | apply KeepsR.next | apply popSlot_keeps | apply spanDeliver_keeps | apply withSlot_keeps | apply Keeps.ite
    | apply KeepsR.ite | split | intro _ | refine Keeps.of_mk ?_ rfl rfl | dsimp only

theorem applyOffset_keeps {b : State} {s x} (hs : Keeps b s) : Keeps b (s.applyOffset x) := by
  unfold State.applyOffset
  repeat' with_reducible
    first
    | assumption | apply event_keeps | apply Keeps.ite | split | intro _ | refine Keeps.of_mk ?_ rfl rfl | dsimp only

theorem execSlotTime_keeps {b : State} {port s} (hs : Keeps b s) : KeepsR b (execSlotTime port s) := by
  unfold execSlotTime
  repeat' with_reducible
    first
    | assumption | apply KeepsR.next | apply modPort_keeps | apply sendSlot_keeps | apply popSlot_keeps | apply withSlot_keeps
    | apply applyOffset_keeps | apply Keeps.ite | apply KeepsR.ite | split | intro _ | refine Keeps.of_mk ?_ rfl rfl | dsimp only

theorem execTimeExchange_keeps {b : State} {ex s} (hs : Keeps b s) : KeepsR b (execTimeExchange ex s) := by
  unfold execTimeExchange
  repeat' with_reducible
    first
    | assumption | apply KeepsR.next | apply applyOffset_keeps | apply Keeps.ite | apply KeepsR.ite | split | intro _
    | refine Keeps.of_mk ?_ rfl rfl | dsimp only

theorem execTimeBaseSync_keeps {b : State} {s} (hs : Keeps b s) : KeepsR b (execTimeBaseSync s) := by
  unfold execTimeBaseSync
  repeat' with_reducible
    first
    | assumption | apply KeepsR.next | apply Keeps.ite | apply KeepsR.ite | split | intro _ | refine Keeps.of_mk ?_ rfl rfl | dsimp only

theorem askImage_keeps {b : State} {s cmd} (hs : Keeps b s) : Keeps b (s.askImage cmd) := by
  unfold State.askImage
  repeat' with_reducible
    first
    | assumption | apply sendSlot_keeps | refine Keeps.foldl (fun _ _ _ => ?_) _ _ ?_ | apply Keeps.ite | split | intro _
    | refine Keeps.of_mk ?_ rfl rfl | dsimp only

theorem execSlotManagementCommand_keeps {b : State} {port cmd s} (hs : Keeps b s) : KeepsR b (execSlotManagementCommand port cmd s) := by
  unfold execSlotManagementCommand
  repeat' with_reducible
    first
    | assumption | apply KeepsR.next | apply popSlot_keeps | apply loadCmd_keeps | apply releaseCmd_keeps | apply stopCmd_keeps
    | apply armCmd_keeps | apply cancelCmd_keeps | apply withSlot_keeps | apply askImage_keeps | apply Keeps.ite | apply KeepsR.ite | split
    | intro _ | refine Keeps.of_mk ?_ rfl rfl | dsimp only

theorem d2dLost_keeps {b : State} {s} (hs : Keeps b s) : Keeps b (s.d2dLost) := by
  unfold State.d2dLost
  repeat' with_reducible
    first
    | assumption | apply turnAway_keeps | refine Keeps.foldl (fun _ _ _ => ?_) _ _ ?_ | split | intro _ | refine Keeps.of_mk ?_ rfl rfl
    | dsimp only

theorem execD2dFlitReceive_keeps {b : State} {flit s} (hs : Keeps b s) : KeepsR b (execD2dFlitReceive flit s) := by
  unfold execD2dFlitReceive
  repeat' with_reducible
    first
    | assumption | apply KeepsR.next | apply event_keeps | apply d2dLost_keeps | apply Keeps.ite | apply KeepsR.ite | split | intro _
    | refine Keeps.of_mk ?_ rfl rfl | dsimp only

theorem execD2dRetrainDone_keeps {b : State} {s} (hs : Keeps b s) : KeepsR b (execD2dRetrainDone s) := by
  unfold execD2dRetrainDone
  repeat' with_reducible
    first
    | assumption | apply KeepsR.next | apply serveSoft_keeps | apply waitedStops_keeps | apply waitedResets_keeps | apply resumeCmd_keeps
    | split | intro _ | refine Keeps.of_mk ?_ rfl rfl | dsimp only

theorem ctrlRefused_keeps {b : State} {s req addr p c} (hs : Keeps b s) : Keeps b (s.ctrlRefused req addr p c) := by
  unfold State.ctrlRefused
  repeat' with_reducible
    first
    | assumption | apply errorTo_keeps | apply event_keeps | split | intro _ | refine Keeps.of_mk ?_ rfl rfl | dsimp only

theorem rrCtl_keeps {b : State} {s req p mode} (hs : Keeps b s) : Keeps b (s.rrCtl req p mode) := by
  unfold State.rrCtl
  repeat' with_reducible
    first
    | assumption | apply errorTo_keeps | apply ctrlRefused_keeps | apply Keeps.ite | split | intro _ | refine Keeps.of_mk ?_ rfl rfl
    | dsimp only

theorem rrMode_keeps {b : State} {s req p mode} (hs : Keeps b s) : Keeps b (s.rrMode req p mode) := by
  unfold State.rrMode
  repeat' with_reducible
    first
    | assumption | apply rrCtl_keeps | apply Keeps.ite | split | intro _ | refine Keeps.of_mk ?_ rfl rfl | dsimp only

theorem execRrModeOff_keeps {b : State} {req p s} (hs : Keeps b s) : KeepsR b (execRrModeOff req p s) := by
  unfold execRrModeOff
  repeat' with_reducible
    first
    | assumption | apply KeepsR.next | apply rrMode_keeps | split | intro _ | refine Keeps.of_mk ?_ rfl rfl | dsimp only

theorem execRrModeRecord_keeps {b : State} {req p s} (hs : Keeps b s) : KeepsR b (execRrModeRecord req p s) := by
  unfold execRrModeRecord
  repeat' with_reducible
    first
    | assumption | apply KeepsR.next | apply rrMode_keeps | split | intro _ | refine Keeps.of_mk ?_ rfl rfl | dsimp only

theorem execRrModeReplay_keeps {b : State} {req p s} (hs : Keeps b s) : KeepsR b (execRrModeReplay req p s) := by
  unfold execRrModeReplay
  repeat' with_reducible
    first
    | assumption | apply KeepsR.next | apply rrMode_keeps | split | intro _ | refine Keeps.of_mk ?_ rfl rfl | dsimp only

theorem writeBytes_keeps {b : State} {s a bytes} (hs : Keeps b s) : Keeps b (s.writeBytes a bytes) := by
  unfold State.writeBytes
  repeat' with_reducible
    first
    | assumption | apply writeNow_keeps | refine Keeps.foldl (fun _ _ _ => ?_) _ _ ?_ | split | intro _ | refine Keeps.of_mk ?_ rfl rfl
    | dsimp only

theorem execRecordStagingWrite_keeps {b : State} {s} (hs : Keeps b s) : KeepsR b (execRecordStagingWrite s) := by
  unfold execRecordStagingWrite
  repeat' with_reducible
    first
    | assumption | apply KeepsR.next | apply rrIncomplete_keeps | apply writeBytes_keeps | apply Keeps.ite | apply KeepsR.ite | split
    | intro _ | refine Keeps.of_mk ?_ rfl rfl | dsimp only

theorem execEventRecordDurable_keeps {b : State} {s} (hs : Keeps b s) : KeepsR b (execEventRecordDurable s) := by
  unfold execEventRecordDurable
  repeat' with_reducible
    first
    | assumption | apply KeepsR.next | apply raise_keeps | apply waitedResets_keeps | apply Keeps.ite | apply KeepsR.ite | split | intro _
    | refine Keeps.of_mk ?_ rfl rfl | dsimp only

theorem execCeSummaryCheck_keeps {b : State} {s} (hs : Keeps b s) : KeepsR b (execCeSummaryCheck s) := by
  unfold execCeSummaryCheck
  repeat' with_reducible
    first
    | assumption | apply KeepsR.next | apply modCfg_keeps | apply event_keeps | refine Keeps.foldl (fun _ _ _ => ?_) _ _ ?_
    | apply Keeps.ite | apply KeepsR.ite | split | intro _ | refine Keeps.of_mk ?_ rfl rfl | dsimp only

theorem evrRdseq_keeps {b : State} {s off size value} (hs : Keeps b s) : Keeps b (s.evrRdseq off size value) := by
  unfold State.evrRdseq
  repeat' with_reducible
    first
    | assumption | apply Keeps.ite | split | intro _ | refine Keeps.of_mk ?_ rfl rfl | dsimp only

theorem execEvrRdseqWrite_keeps {b : State} {off size value s} (hs : Keeps b s) : KeepsR b (execEvrRdseqWrite off size value s) := by
  unfold execEvrRdseqWrite
  repeat' with_reducible
    first
    | assumption | apply KeepsR.next | apply evrRdseq_keeps | apply Keeps.ite | apply KeepsR.ite | split | intro _
    | refine Keeps.of_mk ?_ rfl rfl | dsimp only

theorem answer_keeps {b : State} {s accepted data} (hs : Keeps b s) : Keeps b (s.answer accepted data) := by
  unfold State.answer
  repeat' with_reducible
    first
    | assumption | apply emit_keeps | split | intro _ | refine Keeps.of_mk ?_ rfl rfl | dsimp only

theorem execEvrRead_keeps {b : State} {sec seq s} (hs : Keeps b s) : KeepsR b (execEvrRead sec seq s) := by
  unfold execEvrRead
  repeat' with_reducible
    first
    | assumption | apply KeepsR.next | apply answer_keeps | apply Keeps.ite | apply KeepsR.ite | split | intro _
    | refine Keeps.of_mk ?_ rfl rfl | dsimp only

theorem execEvrClear_keeps {b : State} {sec wellFormed authorised s} (hs : Keeps b s) :
    KeepsR b (execEvrClear sec wellFormed authorised s) := by
  unfold execEvrClear
  refine KeepsR.ite (KeepsR.next hs) (KeepsR.ite (KeepsR.next (answer_keeps hs)) (KeepsR.ite
    (KeepsR.next (answer_keeps (event_keeps hs))) (KeepsR.ite (KeepsR.next (answer_keeps (event_keeps hs))) ?_)))
  exact KeepsR.next (answer_keeps (event_keeps ⟨hs.pending, hs.grade, hs.mem, fun _ => Nat.zero_le _, hs.lcs⟩))

theorem rampStep_keeps {b : State} {s k} (hs : Keeps b s) : Keeps b (s.rampStep k) := by
  unfold State.rampStep
  repeat' with_reducible
    first
    | assumption | apply coreRail_keeps | apply moveTo_keeps | apply Keeps.ite | split | intro _ | refine Keeps.of_mk ?_ rfl rfl
    | dsimp only

theorem execRailSettleCheck_keeps {b : State} {settled s} (hs : Keeps b s) : KeepsR b (execRailSettleCheck settled s) := by
  unfold execRailSettleCheck
  repeat' with_reducible
    first
    | assumption | apply KeepsR.next | apply coreRail_keeps | apply Keeps.ite | apply KeepsR.ite | split | intro _
    | refine Keeps.of_mk ?_ rfl rfl | dsimp only

theorem execFreqChangeStart_keeps {b : State} {s} (hs : Keeps b s) : KeepsR b (execFreqChangeStart s) := by
  unfold execFreqChangeStart
  repeat' with_reducible
    first
    | assumption | apply KeepsR.next | apply event_keeps | apply rampStep_keeps | apply Keeps.ite | apply KeepsR.ite | split | intro _
    | refine Keeps.of_mk ?_ rfl rfl | dsimp only

theorem execFreqRampStep_keeps {b : State} {s} (hs : Keeps b s) : KeepsR b (execFreqRampStep s) := by
  unfold execFreqRampStep
  repeat' with_reducible
    first
    | assumption | apply KeepsR.next | apply rampStep_keeps | apply Keeps.ite | apply KeepsR.ite | split | intro _
    | refine Keeps.of_mk ?_ rfl rfl | dsimp only

theorem execChangeSpacingEnd_keeps {b : State} {s} (hs : Keeps b s) : KeepsR b (execChangeSpacingEnd s) := by
  unfold execChangeSpacingEnd
  repeat' with_reducible
    first
    | assumption | apply KeepsR.next | apply requestChange_keeps | apply Keeps.ite | apply KeepsR.ite | split | intro _
    | refine Keeps.of_mk ?_ rfl rfl | dsimp only

theorem execDroopResponse_keeps {b : State} {lowest s} (hs : Keeps b s) : KeepsR b (execDroopResponse lowest s) := by
  unfold execDroopResponse
  repeat' with_reducible
    first
    | assumption | apply KeepsR.next | apply Keeps.ite | apply KeepsR.ite | split | intro _ | refine Keeps.of_mk ?_ rfl rfl | dsimp only

theorem oscClear_keeps {b : State} {s} (hs : Keeps b s) : Keeps b (s.oscClear) := by
  unfold State.oscClear
  repeat' with_reducible
    first
    | assumption | split | intro _ | refine Keeps.of_mk ?_ rfl rfl | dsimp only

theorem execOscStatClear_keeps {b : State} {off size value s} (hs : Keeps b s) : KeepsR b (execOscStatClear off size value s) := by
  unfold execOscStatClear
  repeat' with_reducible
    first
    | assumption | apply KeepsR.next | apply oscClear_keeps | apply Keeps.ite | apply KeepsR.ite | split | intro _
    | refine Keeps.of_mk ?_ rfl rfl | dsimp only

theorem execCoreUv_keeps {b : State} {s} (hs : Keeps b s) : KeepsR b (execCoreUv s) := by
  unfold execCoreUv
  repeat' with_reducible
    first
    | assumption | apply KeepsR.next | apply event_keeps | apply enterWarm_keeps | apply Keeps.ite | apply KeepsR.ite | split | intro _
    | refine Keeps.of_mk ?_ rfl rfl | dsimp only

theorem execRefclkOutOfTolerance_keeps {b : State} {s} (hs : Keeps b s) : KeepsR b (execRefclkOutOfTolerance s) := by
  unfold execRefclkOutOfTolerance
  repeat' with_reducible
    first
    | assumption | apply KeepsR.next | apply event_keeps | apply Keeps.ite | apply KeepsR.ite | split | intro _
    | refine Keeps.of_mk ?_ rfl rfl | dsimp only

theorem execRefclkLoss_keeps {b : State} {s} (hs : Keeps b s) : KeepsR b (execRefclkLoss s) := by
  unfold execRefclkLoss
  repeat' with_reducible
    first
    | assumption | apply KeepsR.next | apply event_keeps | apply linksReset_keeps | apply Keeps.ite | apply KeepsR.ite | split | intro _
    | refine Keeps.of_mk ?_ rfl rfl | dsimp only

theorem execRefclkReturn_keeps {b : State} {s} (hs : Keeps b s) : KeepsR b (execRefclkReturn s) := by
  unfold execRefclkReturn
  repeat' with_reducible
    first
    | assumption | apply KeepsR.next | apply Keeps.ite | apply KeepsR.ite | split | intro _ | refine Keeps.of_mk ?_ rfl rfl | dsimp only

theorem execStretchedCycle_keeps {b : State} {network s} (hs : Keeps b s) : KeepsR b (execStretchedCycle network s) := by
  unfold execStretchedCycle
  repeat' with_reducible
    first
    | assumption | apply KeepsR.next | apply Keeps.ite | apply KeepsR.ite | split | intro _ | refine Keeps.of_mk ?_ rfl rfl | dsimp only

theorem askTime_keeps {b : State} {s} (hs : Keeps b s) : Keeps b (s.askTime) := by
  unfold State.askTime
  repeat' with_reducible
    first
    | assumption | apply sendSlot_keeps | apply Keeps.ite | split | intro _ | refine Keeps.of_mk ?_ rfl rfl | dsimp only

theorem execTimeBaseTick_keeps {b : State} {s} (hs : Keeps b s) : KeepsR b (execTimeBaseTick s) := by
  unfold execTimeBaseTick
  repeat' with_reducible
    first
    | assumption | apply KeepsR.next | apply startRelease_keeps | apply askTime_keeps | refine Keeps.foldl (fun _ _ _ => ?_) _ _ ?_
    | apply Keeps.ite | apply KeepsR.ite | split | intro _ | refine Keeps.of_mk ?_ rfl rfl | dsimp only

theorem execTbCountLoRead_keeps {b : State} {size s} (hs : Keeps b s) : KeepsR b (execTbCountLoRead size s) := by
  unfold execTbCountLoRead
  repeat' with_reducible
    first
    | assumption | apply KeepsR.next | apply emit_keeps | apply Keeps.ite | apply KeepsR.ite | split | intro _
    | refine Keeps.of_mk ?_ rfl rfl | dsimp only

theorem modPow_keeps {b : State} {s f} (hs : Keeps b s) : Keeps b (s.modPow f) := by
  unfold State.modPow
  repeat' with_reducible
    first
    | assumption | apply raise_keeps | apply Keeps.ite | split | intro _ | refine Keeps.of_mk ?_ rfl rfl | dsimp only

theorem standby_keeps {b : State} {s} (hs : Keeps b s) : Keeps b (s.standby) := by
  unfold State.standby
  repeat' with_reducible
    first
    | assumption | apply railsOff_keeps | split | intro _ | refine Keeps.of_mk ?_ rfl rfl | dsimp only

theorem bootChecks_keeps {b : State} {s bf} (hs : Keeps b s) : Keeps b (s.bootChecks bf) := by
  unfold State.bootChecks
  repeat' with_reducible
    first
    | assumption | apply alarm_keeps | apply Keeps.ite | split | intro _ | refine Keeps.of_mk ?_ rfl rfl | dsimp only

theorem powerGood_keeps {b : State} {s} (hs : Keeps b s) : Keeps b (s.powerGood) := by
  unfold State.powerGood
  repeat' with_reducible
    first
    | assumption | apply event_keeps | split | intro _ | refine Keeps.of_mk ?_ rfl rfl | dsimp only

theorem bootStep_keeps {b : State} {s} (hs : Keeps b s) : Keeps b (s.bootStep) := by
  unfold State.bootStep
  repeat' with_reducible
    first
    | assumption | apply setRail_keeps | apply powerGood_keeps | split | intro _ | refine Keeps.of_mk ?_ rfl rfl | dsimp only

theorem coldBoot_keeps {b : State} {s bf cause} (hs : Keeps b s) : Keeps b (s.coldBoot bf cause) := by
  have hl : (((s.sec.cold cause).stored bf).boot bf.bankOk).lcs = s.sec.lcs := by
    unfold SecurityUnit.boot SecurityUnit.stored
    dsimp only
    split <;> (try split) <;> (try split) <;> rfl
  unfold State.coldBoot
  extract_lets r0 r1 r2 r3 t0 r5 t1 t2 magic bad r4 t3 t4
  have h0 : Keeps b t0 :=
    ⟨hs.pending, hs.grade, fun _ => rfl, fun k => hs.store k, hl.trans hs.lcs⟩
  clear_value t0
  have h1 : Keeps b t1 := setRail_keeps (by with_reducible exact Keeps.of_mk h0 rfl rfl)
  clear_value t1
  have h2 : Keeps b t2 := bootChecks_keeps h1
  clear_value t2
  have h3 : Keeps b t3 := by with_reducible exact Keeps.of_mk h2 rfl rfl
  clear_value t3
  have h4 : Keeps b t4 := Keeps.ite (event_keeps h3) h3
  clear_value t4
  exact Keeps.ite (standby_keeps h1) (Keeps.ite (standby_keeps h4) h4)

theorem execColdReset_keeps {b : State} {boot s} (hs : Keeps b s) : KeepsR b (execColdReset boot s) := by
  unfold execColdReset
  repeat' with_reducible
    first
    | assumption | apply KeepsR.next | apply coldBoot_keeps | apply Keeps.ite | apply KeepsR.ite | split | intro _
    | refine Keeps.of_mk ?_ rfl rfl | dsimp only

theorem execColdCommandTurnOn_keeps {b : State} {boot s} (hs : Keeps b s) : KeepsR b (execColdCommandTurnOn boot s) := by
  unfold execColdCommandTurnOn
  repeat' with_reducible
    first
    | assumption | apply KeepsR.next | apply coldBoot_keeps | apply Keeps.ite | apply KeepsR.ite | split | intro _
    | refine Keeps.of_mk ?_ rfl rfl | dsimp only

theorem execRailFail_keeps {b : State} {rail s} (hs : Keeps b s) : KeepsR b (execRailFail rail s) := by
  unfold execRailFail
  refine KeepsR.ite (KeepsR.ite (KeepsR.next (powerDown_keeps hs)) ?_) (KeepsR.next hs)
  extract_lets t
  have h : Keeps b t := standby_keeps (event_keeps hs)
  clear_value t
  refine KeepsR.next ?_
  with_reducible exact Keeps.of_mk h rfl rfl

theorem bootSteps_keeps {b : State} {s} (hs : Keeps b s) : Keeps b (s.bootSteps) := by
  unfold State.bootSteps
  exact Keeps.foldl (fun _ _ h => Keeps.ite (bootStep_keeps h) h) _ _ hs

theorem execBootReady_keeps {b : State} {s} (hs : Keeps b s) : KeepsR b (execBootReady s) := by
  unfold execBootReady
  extract_lets t
  have h : Keeps b t := bootSteps_keeps hs
  clear_value t
  exact KeepsR.ite (KeepsR.next ⟨h.pending, h.grade, fun _ => rfl, fun k => h.store k, h.lcs⟩) (KeepsR.next h)

theorem bandRecord_keeps {b : State} {s high mv} (hs : Keeps b s) : Keeps b (s.bandRecord high mv) := by
  unfold State.bandRecord
  repeat' with_reducible
    first
    | assumption | apply event_keeps | split | intro _ | refine Keeps.of_mk ?_ rfl rfl | dsimp only

theorem execVinSample_keeps {b : State} {mv ma s} (hs : Keeps b s) : KeepsR b (execVinSample mv ma s) := by
  unfold execVinSample
  repeat' with_reducible
    first
    | assumption | apply KeepsR.next | apply modPow_keeps | apply bandRecord_keeps | apply Keeps.ite | apply KeepsR.ite | exact KeepsR.fault
    | split | intro _ | refine Keeps.of_mk ?_ rfl rfl | dsimp only

theorem execUndervoltageShutdown_keeps {b : State} {s} (hs : Keeps b s) : KeepsR b (execUndervoltageShutdown s) := by
  unfold execUndervoltageShutdown
  repeat' with_reducible
    first
    | assumption | apply KeepsR.next | apply shutdown_keeps | apply Keeps.ite | apply KeepsR.ite | split | intro _
    | refine Keeps.of_mk ?_ rfl rfl | dsimp only

theorem execOvervoltageShutdown_keeps {b : State} {s} (hs : Keeps b s) : KeepsR b (execOvervoltageShutdown s) := by
  unfold execOvervoltageShutdown
  repeat' with_reducible
    first
    | assumption | apply KeepsR.next | apply shutdown_keeps | apply Keeps.ite | apply KeepsR.ite | split | intro _
    | refine Keeps.of_mk ?_ rfl rfl | dsimp only

theorem execOvercurrentShutdown_keeps {b : State} {s} (hs : Keeps b s) : KeepsR b (execOvercurrentShutdown s) := by
  unfold execOvercurrentShutdown
  repeat' with_reducible
    first
    | assumption | apply KeepsR.next | apply shutdown_keeps | apply Keeps.ite | apply KeepsR.ite | split | intro _
    | refine Keeps.of_mk ?_ rfl rfl | dsimp only

theorem execMgrLoss_keeps {b : State} {s} (hs : Keeps b s) : KeepsR b (execMgrLoss s) := by
  unfold execMgrLoss
  repeat' with_reducible
    first
    | assumption | apply KeepsR.next | apply shutdown_keeps | apply Keeps.ite | apply KeepsR.ite | split | intro _
    | refine Keeps.of_mk ?_ rfl rfl | dsimp only

theorem execShutdownLatchRelease_keeps {b : State} {s} (hs : Keeps b s) : KeepsR b (execShutdownLatchRelease s) := by
  unfold execShutdownLatchRelease
  repeat' with_reducible
    first
    | assumption | apply KeepsR.next | apply Keeps.ite | apply KeepsR.ite | split | intro _ | refine Keeps.of_mk ?_ rfl rfl | dsimp only

theorem execTempSample_keeps {b : State} {temps s} (hs : Keeps b s) : KeepsR b (execTempSample temps s) := by
  unfold execTempSample
  repeat' with_reducible
    first
    | assumption | apply KeepsR.next | apply shutdown_keeps | apply standby_keeps | apply Keeps.ite | apply KeepsR.ite | split | intro _
    | refine Keeps.of_mk ?_ rfl rfl | dsimp only

theorem powerStop_keeps {b : State} {s} (hs : Keeps b s) : Keeps b (s.powerStop) := by
  unfold State.powerStop
  repeat' with_reducible
    first
    | assumption | apply event_keeps | apply stopAcross_keeps | refine Keeps.foldl (fun _ _ _ => ?_) _ _ ?_ | apply Keeps.ite | split
    | intro _ | refine Keeps.of_mk ?_ rfl rfl | dsimp only

theorem overCheck_keeps {b : State} {s p l} (hs : Keeps b s) : Keeps b (s.overCheck p l) := by
  unfold State.overCheck
  repeat' with_reducible
    first
    | assumption | apply event_keeps | apply modPow_keeps | apply powerStop_keeps | apply Keeps.ite | split | intro _
    | refine Keeps.of_mk ?_ rfl rfl | dsimp only

theorem execEnvelopeAdjust_keeps {b : State} {s} (hs : Keeps b s) : KeepsR b (execEnvelopeAdjust s) := by
  unfold execEnvelopeAdjust
  repeat' with_reducible
    first
    | assumption | apply KeepsR.next | apply requestChange_keeps | apply overCheck_keeps | apply Keeps.ite | apply KeepsR.ite | split
    | intro _ | refine Keeps.of_mk ?_ rfl rfl | dsimp only

theorem execCalRead_keeps {b : State} {piece s} (hs : Keeps b s) : KeepsR b (execCalRead piece s) := by
  unfold execCalRead
  repeat' with_reducible
    first
    | assumption | apply KeepsR.next | apply take_keeps | apply answer_keeps | apply standby_keeps | apply Keeps.ite | apply KeepsR.ite
    | split | intro _ | refine Keeps.of_mk ?_ rfl rfl | dsimp only

theorem takeCal_keeps {b : State} {s l} (hs : Keeps b s) : Keeps b (s.takeCal l) := by
  unfold State.takeCal
  repeat' with_reducible
    first
    | assumption | apply event_keeps | apply answer_keeps | apply Keeps.ite | split | intro _ | refine Keeps.of_mk ?_ rfl rfl | dsimp only

theorem execCalWrite_keeps {b : State} {sec piece s} (hs : Keeps b s) : KeepsR b (execCalWrite sec piece s) := by
  unfold execCalWrite
  repeat' with_reducible
    first
    | assumption | apply KeepsR.next | apply answer_keeps | apply takeCal_keeps | apply Keeps.ite | apply KeepsR.ite | split | intro _
    | refine Keeps.of_mk ?_ rfl rfl | dsimp only

theorem keyed_keeps {b : State} {s key go} (hgo : ∀ z, Keeps b z → Keeps b (go z)) (hs : Keeps b s) : Keeps b (s.keyed key go) := by
  unfold State.keyed
  repeat' with_reducible
    first
    | assumption | apply hgo | apply emit_keeps | apply Keeps.ite | split | intro _ | refine Keeps.of_mk ?_ rfl rfl | dsimp only

theorem partitionResets_keeps {b : State} {s pmask} (hs : Keeps b s) : Keeps b (s.partitionResets pmask) := by
  unfold State.partitionResets
  repeat' with_reducible
    first
    | assumption | apply partitionReset_keeps | refine Keeps.foldl (fun _ _ _ => ?_) _ _ ?_ | apply Keeps.ite | split | intro _
    | refine Keeps.of_mk ?_ rfl rfl | dsimp only

theorem coldCommand_keeps {b : State} {s} (hs : Keeps b s) : Keeps b (s.coldCommand) := by
  unfold State.coldCommand
  repeat' with_reducible
    first
    | assumption | apply powerDown_keeps | split | intro _ | refine Keeps.of_mk ?_ rfl rfl | dsimp only

theorem execMgrRstWarm_keeps {b : State} {key s} (hs : Keeps b s) : KeepsR b (execMgrRstWarm key s) := by
  unfold execMgrRstWarm
  repeat' with_reducible
    first
    | assumption | apply KeepsR.next | apply warmReset_keeps | apply keyed_keeps | split | intro _ | refine Keeps.of_mk ?_ rfl rfl
    | dsimp only

theorem execMgrRstPartition_keeps {b : State} {key pmask s} (hs : Keeps b s) : KeepsR b (execMgrRstPartition key pmask s) := by
  unfold execMgrRstPartition
  repeat' with_reducible
    first
    | assumption | apply KeepsR.next | apply keyed_keeps | apply partitionResets_keeps | split | intro _ | refine Keeps.of_mk ?_ rfl rfl
    | dsimp only

theorem execMgrRstCold_keeps {b : State} {key s} (hs : Keeps b s) : KeepsR b (execMgrRstCold key s) := by
  unfold execMgrRstCold
  repeat' with_reducible
    first
    | assumption | apply KeepsR.next | apply keyed_keeps | apply coldCommand_keeps | split | intro _ | refine Keeps.of_mk ?_ rfl rfl
    | dsimp only

theorem execMctpResetCold_keeps {b : State} {sec s} (hs : Keeps b s) : KeepsR b (execMctpResetCold sec s) := by
  unfold execMctpResetCold
  repeat' with_reducible
    first
    | assumption | apply KeepsR.next | apply answer_keeps | apply coldCommand_keeps | apply Keeps.ite | apply KeepsR.ite | split | intro _
    | refine Keeps.of_mk ?_ rfl rfl | dsimp only

theorem execMctpResetWarm_keeps {b : State} {sec s} (hs : Keeps b s) : KeepsR b (execMctpResetWarm sec s) := by
  unfold execMctpResetWarm
  repeat' with_reducible
    first
    | assumption | apply KeepsR.next | apply warmReset_keeps | apply answer_keeps | apply Keeps.ite | apply KeepsR.ite | split | intro _
    | refine Keeps.of_mk ?_ rfl rfl | dsimp only

theorem execMctpResetPartition_keeps {b : State} {sec pmask s} (hs : Keeps b s) : KeepsR b (execMctpResetPartition sec pmask s) := by
  unfold execMctpResetPartition
  repeat' with_reducible
    first
    | assumption | apply KeepsR.next | apply answer_keeps | apply partitionResets_keeps | apply Keeps.ite | apply KeepsR.ite | split
    | intro _ | refine Keeps.of_mk ?_ rfl rfl | dsimp only

theorem execPartitionWipeDone_keeps {b : State} {p s} (hs : Keeps b s) : KeepsR b (execPartitionWipeDone p s) := by
  unfold execPartitionWipeDone
  repeat' with_reducible
    first
    | assumption | apply KeepsR.next | apply modPart_keeps | apply wipeSpans_keeps | apply Keeps.ite | apply KeepsR.ite | split | intro _
    | refine Keeps.of_mk ?_ rfl rfl | dsimp only

theorem execWarmResetReady_keeps {b : State} {fault s} (hs : Keeps b s) : KeepsR b (execWarmResetReady fault s) := by
  unfold execWarmResetReady
  split
  · exact KeepsR.next hs
  · split
    · exact KeepsR.next (event_keeps (Keeps.of_mk hs rfl rfl))
    · exact KeepsR.next ⟨hs.pending, hs.grade, fun _ => rfl, fun k => hs.store k, hs.lcs⟩

theorem lcRefused_keeps {b : State} {s code reason} (hs : Keeps b s) : Keeps b (s.lcRefused code reason) := by
  unfold State.lcRefused
  repeat' with_reducible
    first
    | assumption | apply event_keeps | apply answer_keeps | split | intro _ | refine Keeps.of_mk ?_ rfl rfl | dsimp only

theorem execTamperOpen_keeps {b : State} {s} (hs : Keeps b s) : KeepsR b (execTamperOpen s) := by
  unfold execTamperOpen
  repeat' with_reducible
    first
    | assumption | apply KeepsR.next | apply alarm_keeps | apply Keeps.ite | apply KeepsR.ite | split | intro _
    | refine Keeps.of_mk ?_ rfl rfl | dsimp only

theorem execTamperLoopClose_keeps {b : State} {s} (hs : Keeps b s) : KeepsR b (execTamperLoopClose s) := by
  unfold execTamperLoopClose
  repeat' with_reducible
    first
    | assumption | apply KeepsR.next | apply Keeps.ite | apply KeepsR.ite | split | intro _ | refine Keeps.of_mk ?_ rfl rfl | dsimp only

theorem execGlitch_keeps {b : State} {s} (hs : Keeps b s) : KeepsR b (execGlitch s) := by
  unfold execGlitch
  repeat' with_reducible
    first
    | assumption | apply KeepsR.next | apply alarm_keeps | split | intro _ | refine Keeps.of_mk ?_ rfl rfl | dsimp only

theorem tapEnter_keeps {b : State} {s code} (hs : Keeps b s) : Keeps b (s.tapEnter code) := by
  unfold State.tapEnter
  repeat' with_reducible
    first
    | assumption | apply raise_keeps | apply modPort_keeps | apply stopAllAcross_keeps | refine Keeps.foldl (fun _ _ _ => ?_) _ _ ?_
    | apply Keeps.ite | split | intro _ | refine Keeps.of_mk ?_ rfl rfl | dsimp only

theorem execTapBypass_keeps {b : State} {s} (hs : Keeps b s) : KeepsR b (execTapBypass s) := by
  unfold execTapBypass
  repeat' with_reducible
    first
    | assumption | apply KeepsR.next | apply tapEnter_keeps | split | intro _ | refine Keeps.of_mk ?_ rfl rfl | dsimp only

theorem execTapIdcode_keeps {b : State} {s} (hs : Keeps b s) : KeepsR b (execTapIdcode s) := by
  unfold execTapIdcode
  repeat' with_reducible
    first
    | assumption | apply KeepsR.next | apply tapEnter_keeps | split | intro _ | refine Keeps.of_mk ?_ rfl rfl | dsimp only

theorem execTapSamplePreload_keeps {b : State} {s} (hs : Keeps b s) : KeepsR b (execTapSamplePreload s) := by
  unfold execTapSamplePreload
  repeat' with_reducible
    first
    | assumption | apply KeepsR.next | apply tapEnter_keeps | split | intro _ | refine Keeps.of_mk ?_ rfl rfl | dsimp only

theorem execTapExtest_keeps {b : State} {s} (hs : Keeps b s) : KeepsR b (execTapExtest s) := by
  unfold execTapExtest
  repeat' with_reducible
    first
    | assumption | apply KeepsR.next | apply tapEnter_keeps | split | intro _ | refine Keeps.of_mk ?_ rfl rfl | dsimp only

theorem execTapClamp_keeps {b : State} {s} (hs : Keeps b s) : KeepsR b (execTapClamp s) := by
  unfold execTapClamp
  repeat' with_reducible
    first
    | assumption | apply KeepsR.next | apply tapEnter_keeps | split | intro _ | refine Keeps.of_mk ?_ rfl rfl | dsimp only

theorem execTapHighz_keeps {b : State} {s} (hs : Keeps b s) : KeepsR b (execTapHighz s) := by
  unfold execTapHighz
  repeat' with_reducible
    first
    | assumption | apply KeepsR.next | apply tapEnter_keeps | split | intro _ | refine Keeps.of_mk ?_ rfl rfl | dsimp only

theorem execTapPrivate_keeps {b : State} {s} (hs : Keeps b s) : KeepsR b (execTapPrivate s) := by
  unfold execTapPrivate
  repeat' with_reducible
    first
    | assumption | apply KeepsR.next | apply alarm_keeps | apply tapEnter_keeps | apply Keeps.ite | apply KeepsR.ite | split | intro _
    | refine Keeps.of_mk ?_ rfl rfl | dsimp only

theorem execPldmFirmwareUpdate_keeps {b : State} {fw s} (hs : Keeps b s) : KeepsR b (execPldmFirmwareUpdate fw s) := by
  unfold execPldmFirmwareUpdate
  repeat' with_reducible
    first
    | assumption | apply KeepsR.next | apply answer_keeps | apply Keeps.ite | apply KeepsR.ite | split | intro _
    | refine Keeps.of_mk ?_ rfl rfl | dsimp only

theorem execPldmSensorRead_keeps {b : State} {s} (hs : Keeps b s) : KeepsR b (execPldmSensorRead s) := by
  unfold execPldmSensorRead
  repeat' with_reducible
    first
    | assumption | apply KeepsR.next | apply answer_keeps | apply Keeps.ite | apply KeepsR.ite | split | intro _
    | refine Keeps.of_mk ?_ rfl rfl | dsimp only

theorem execPldmDiscovery_keeps {b : State} {s} (hs : Keeps b s) : KeepsR b (execPldmDiscovery s) := by
  unfold execPldmDiscovery
  repeat' with_reducible
    first
    | assumption | apply KeepsR.next | apply answer_keeps | apply Keeps.ite | apply KeepsR.ite | split | intro _
    | refine Keeps.of_mk ?_ rfl rfl | dsimp only

theorem signed_keeps {b : State} {s data} (hs : Keeps b s) : Keeps b (s.signed data) := by
  unfold State.signed
  repeat' with_reducible
    first
    | assumption | apply answer_keeps | split | intro _ | refine Keeps.of_mk ?_ rfl rfl | dsimp only

theorem execSpdmGetCertificate_keeps {b : State} {s} (hs : Keeps b s) : KeepsR b (execSpdmGetCertificate s) := by
  unfold execSpdmGetCertificate
  repeat' with_reducible
    first
    | assumption | apply KeepsR.next | apply answer_keeps | apply Keeps.ite | apply KeepsR.ite | split | intro _
    | refine Keeps.of_mk ?_ rfl rfl | dsimp only

theorem execSpdmChallenge_keeps {b : State} {nonce s} (hs : Keeps b s) : KeepsR b (execSpdmChallenge nonce s) := by
  unfold execSpdmChallenge
  repeat' with_reducible
    first
    | assumption | apply KeepsR.next | apply answer_keeps | apply signed_keeps | apply Keeps.ite | apply KeepsR.ite | split | intro _
    | refine Keeps.of_mk ?_ rfl rfl | dsimp only

theorem execSpdmGetMeasurements_keeps {b : State} {nonce s} (hs : Keeps b s) : KeepsR b (execSpdmGetMeasurements nonce s) := by
  unfold execSpdmGetMeasurements
  repeat' with_reducible
    first
    | assumption | apply KeepsR.next | apply answer_keeps | apply signed_keeps | apply Keeps.ite | apply KeepsR.ite | split | intro _
    | refine Keeps.of_mk ?_ rfl rfl | dsimp only

theorem execSpdmKeyExchange_keeps {b : State} {nonce s} (hs : Keeps b s) : KeepsR b (execSpdmKeyExchange nonce s) := by
  unfold execSpdmKeyExchange
  repeat' with_reducible
    first
    | assumption | apply KeepsR.next | apply answer_keeps | apply Keeps.ite | apply KeepsR.ite | split | intro _
    | refine Keeps.of_mk ?_ rfl rfl | dsimp only

theorem execIdeKm_keeps {b : State} {sec stream s} (hs : Keeps b s) : KeepsR b (execIdeKm sec stream s) := by
  unfold execIdeKm
  repeat' with_reducible
    first
    | assumption | apply KeepsR.next | apply answer_keeps | apply Keeps.ite | apply KeepsR.ite | split | intro _
    | refine Keeps.of_mk ?_ rfl rfl | dsimp only

theorem dropBells_keeps {b : State} {s of} (hs : Keeps b s) : Keeps b (s.dropBells of) := by
  unfold State.dropBells
  repeat' with_reducible
    first
    | assumption | apply dropSoft_keeps | apply Keeps.ite | split | intro _ | refine Keeps.of_mk ?_ rfl rfl | dsimp only

theorem closeSessions_keeps {b : State} {s of} (hs : Keeps b s) : Keeps b (s.closeSessions of) := by
  unfold State.closeSessions
  repeat' with_reducible
    first
    | assumption | apply dropBells_keeps | apply Keeps.ite | split | intro _ | refine Keeps.of_mk ?_ rfl rfl | dsimp only

theorem sesWrite_keeps {b : State} {s n off size value} (hs : Keeps b s) : Keeps b (s.sesWrite n off size value) := by
  unfold State.sesWrite
  repeat' with_reducible
    first
    | assumption | apply emit_keeps | apply modSession_keeps | apply closeSessions_keeps | apply Keeps.ite | split | intro _
    | refine Keeps.of_mk ?_ rfl rfl | dsimp only

theorem execSesCtxWrite_keeps {b : State} {n off size value s} (hs : Keeps b s) : KeepsR b (execSesCtxWrite n off size value s) := by
  unfold execSesCtxWrite
  repeat' with_reducible
    first
    | assumption | apply KeepsR.next | apply sesWrite_keeps | apply Keeps.ite | apply KeepsR.ite | split | intro _
    | refine Keeps.of_mk ?_ rfl rfl | dsimp only

theorem takeBell_keeps {b : State} {s n lines tag order tb} (hs : Keeps b s) : Keeps b (s.takeBell n lines tag order tb) := by
  unfold State.takeBell
  repeat' with_reducible
    first
    | assumption | apply modSession_keeps | split | intro _ | refine Keeps.of_mk ?_ rfl rfl | dsimp only

theorem refuseBell_keeps {b : State} {s n stat lines tag} (hs : Keeps b s) : Keeps b (s.refuseBell n stat lines tag) := by
  unfold State.refuseBell
  repeat' with_reducible
    first
    | assumption | apply complete_keeps | split | intro _ | refine Keeps.of_mk ?_ rfl rfl | dsimp only

theorem ringNow_keeps {b : State} {s n fn value order tb} (hs : Keeps b s) : Keeps b (s.ringNow n fn value order tb) := by
  unfold State.ringNow
  repeat' with_reducible
    first
    | assumption | apply takeBell_keeps | apply refuseBell_keeps | apply Keeps.ite | split | intro _ | refine Keeps.of_mk ?_ rfl rfl
    | dsimp only

theorem ring_keeps {b : State} {s n fn size value} (hs : Keeps b s) : Keeps b (s.ring n fn size value) := by
  unfold State.ring
  repeat' with_reducible
    first
    | assumption | apply emit_keeps | apply meter_keeps | refine meter_keeps_eq (by assumption) ?_ | apply refuseBell_keeps
    | apply ringNow_keeps | apply Keeps.ite | split | intro _ | refine Keeps.of_mk ?_ rfl rfl | dsimp only

theorem execDoorbell_keeps {b : State} {n fn size value s} (hs : Keeps b s) : KeepsR b (execDoorbell n fn size value s) := by
  unfold execDoorbell
  repeat' with_reducible
    first
    | assumption | apply KeepsR.next | apply ring_keeps | apply Keeps.ite | apply KeepsR.ite | split | intro _
    | refine Keeps.of_mk ?_ rfl rfl | dsimp only

theorem execSlotEmptyWrite_keeps {b : State} {p slot s} (hs : Keeps b s) : KeepsR b (execSlotEmptyWrite p slot s) := by
  unfold execSlotEmptyWrite
  repeat' with_reducible
    first
    | assumption | apply KeepsR.next | apply softWrite_keeps | apply modSlot_keeps | apply Keeps.ite | apply KeepsR.ite | split | intro _
    | refine Keeps.of_mk ?_ rfl rfl | dsimp only

theorem readInput_keeps {b : State} {s p slot} (hs : Keeps b s) : Keeps b (s.readInput p slot) := by
  unfold State.readInput
  repeat' with_reducible
    first
    | assumption | apply emit_keeps | split | intro _ | refine Keeps.of_mk ?_ rfl rfl | dsimp only

theorem execInputPlacement_keeps {b : State} {p slot s} (hs : Keeps b s) : KeepsR b (execInputPlacement p slot s) := by
  unfold execInputPlacement
  repeat' with_reducible
    first
    | assumption | apply KeepsR.next | apply modSlot_keeps | apply spend_keeps | apply readInput_keeps | apply Keeps.ite | apply KeepsR.ite
    | split | intro _ | refine Keeps.of_mk ?_ rfl rfl | dsimp only

theorem execPlacementComplete_keeps {b : State} {p slot lines s} (hs : Keeps b s) : KeepsR b (execPlacementComplete p slot lines s) := by
  unfold execPlacementComplete
  repeat' with_reducible
    first
    | assumption | apply KeepsR.next | apply startSoft_keeps | apply Keeps.ite | apply KeepsR.ite | split | intro _
    | refine Keeps.of_mk ?_ rfl rfl | dsimp only

theorem execPlacementSuppress_keeps {b : State} {p slot s} (hs : Keeps b s) : KeepsR b (execPlacementSuppress p slot s) := by
  unfold execPlacementSuppress
  repeat' with_reducible
    first
    | assumption | apply KeepsR.next | apply dropSoft_keeps | apply modSlot_keeps | apply Keeps.ite | apply KeepsR.ite | split | intro _
    | refine Keeps.of_mk ?_ rfl rfl | dsimp only

theorem hostReset_keeps {b : State} {s} (hs : Keeps b s) : Keeps b (s.hostReset) := by
  unfold State.hostReset
  repeat' with_reducible
    first
    | assumption | apply stopAllAcross_keeps | apply closeSessions_keeps | split | intro _ | refine Keeps.of_mk ?_ rfl rfl | dsimp only

theorem execVfFlr_keeps {b : State} {vf s} (hs : Keeps b s) : KeepsR b (execVfFlr vf s) := by
  unfold execVfFlr
  repeat' with_reducible
    first
    | assumption | apply KeepsR.next | apply closeSessions_keeps | apply Keeps.ite | apply KeepsR.ite | split | intro _
    | refine Keeps.of_mk ?_ rfl rfl | dsimp only

theorem execPf0Flr_keeps {b : State} {s} (hs : Keeps b s) : KeepsR b (execPf0Flr s) := by
  unfold execPf0Flr
  repeat' with_reducible
    first
    | assumption | apply KeepsR.next | apply hostReset_keeps | apply Keeps.ite | apply KeepsR.ite | split | intro _
    | refine Keeps.of_mk ?_ rfl rfl | dsimp only

theorem execConventionalReset_keeps {b : State} {s} (hs : Keeps b s) : KeepsR b (execConventionalReset s) := by
  unfold execConventionalReset
  repeat' with_reducible
    first
    | assumption | apply KeepsR.next | apply hostReset_keeps | apply Keeps.ite | apply KeepsR.ite | split | intro _
    | refine Keeps.of_mk ?_ rfl rfl | dsimp only

theorem execD3hotEntry_keeps {b : State} {s} (hs : Keeps b s) : KeepsR b (execD3hotEntry s) := by
  unfold execD3hotEntry
  repeat' with_reducible
    first
    | assumption | apply KeepsR.next | apply hostReset_keeps | apply Keeps.ite | apply KeepsR.ite | split | intro _
    | refine Keeps.of_mk ?_ rfl rfl | dsimp only

theorem execD0Return_keeps {b : State} {s} (hs : Keeps b s) : KeepsR b (execD0Return s) := by
  unfold execD0Return
  repeat' with_reducible
    first
    | assumption | apply KeepsR.next | apply Keeps.ite | apply KeepsR.ite | split | intro _ | refine Keeps.of_mk ?_ rfl rfl | dsimp only

theorem admitted_keeps {b : State} {s tr} (hs : Keeps b s) : Keeps b (s.admitted tr) := by
  cases tr <;> unfold State.admitted
  · exact hs
  · exact Keeps.ite (toService_keeps hs) (replyOut_keeps hs)
  · exact ringNow_keeps hs
  · with_reducible exact Keeps.of_mk hs rfl rfl
  · exact readInput_keeps hs

theorem creditJob_keeps {b : State} {s t k} (hs : Keeps b s) : Keeps b (s.creditJob t k) := by
  unfold State.creditJob
  repeat' with_reducible
    first
    | assumption | apply modSlot_keeps | apply Keeps.ite | split | intro _ | refine Keeps.of_mk ?_ rfl rfl | dsimp only

theorem admitOne_keeps {b : State} {s e} (hs : Keeps b s) : Keeps b (s.admitOne e) := by
  unfold State.admitOne
  repeat' with_reducible
    first
    | assumption | apply spend_keeps | apply admitted_keeps | apply creditJob_keeps | apply Keeps.ite | split | intro _
    | refine Keeps.of_mk ?_ rfl rfl | dsimp only

theorem countWaits_keeps {b : State} {s} (hs : Keeps b s) : Keeps b (s.countWaits) := by
  unfold State.countWaits
  repeat' with_reducible
    first
    | assumption | apply modAct_keeps | refine Keeps.foldl (fun _ _ _ => ?_) _ _ ?_ | split | intro _ | refine Keeps.of_mk ?_ rfl rfl
    | dsimp only

theorem execWeirPeriod_keeps {b : State} {s} (hs : Keeps b s) : KeepsR b (execWeirPeriod s) := by
  unfold execWeirPeriod
  repeat' with_reducible
    first
    | assumption | apply KeepsR.next | apply serveSoft_keeps | apply admitOne_keeps | apply countWaits_keeps
    | refine Keeps.foldl (fun _ _ _ => ?_) _ _ ?_ | apply Keeps.ite | apply KeepsR.ite | split | intro _ | refine Keeps.of_mk ?_ rfl rfl
    | dsimp only

theorem unmask_keeps {b : State} {s v} (hs : Keeps b s) : Keeps b (s.unmask v) := by
  unfold State.unmask
  repeat' with_reducible
    first
    | assumption | apply emit_keeps | apply Keeps.ite | split | intro _ | refine Keeps.of_mk ?_ rfl rfl | dsimp only

theorem execMsixUnmask_keeps {b : State} {vec s} (hs : Keeps b s) : KeepsR b (execMsixUnmask vec s) := by
  unfold execMsixUnmask
  repeat' with_reducible
    first
    | assumption | apply KeepsR.next | apply unmask_keeps | apply Keeps.ite | apply KeepsR.ite | split | intro _
    | refine Keeps.of_mk ?_ rfl rfl | dsimp only

theorem writeAszCmd_keeps {b : State} {s req w} (hs : Keeps b s) : Keeps b (s.writeAszCmd req w) := by
  unfold State.writeAszCmd
  repeat' with_reducible
    first
    | assumption | apply errorTo_keeps | apply startImage_keeps | apply releaseCmd_keeps | apply stopCmd_keeps | apply cancelCmd_keeps
    | apply Keeps.ite | split | intro _ | refine Keeps.of_mk ?_ rfl rfl | dsimp only

theorem writeAsz_keeps {b : State} {s req off size value} (hs : Keeps b s) : Keeps b (s.writeAsz req off size value) := by
  unfold State.writeAsz
  repeat' with_reducible
    first
    | assumption | apply writeAszCmd_keeps | apply Keeps.ite | split | intro _ | refine Keeps.of_mk ?_ rfl rfl | dsimp only

theorem writePow_keeps {b : State} {s off size value} (hs : Keeps b s) : Keeps b (s.writePow off size value) := by
  unfold State.writePow
  repeat' with_reducible
    first
    | assumption | apply oscClear_keeps | apply Keeps.ite | split | intro _ | refine Keeps.of_mk ?_ rfl rfl | dsimp only

theorem writeTime_keeps {b : State} {s req off size value} (hs : Keeps b s) : Keeps b (s.writeTime req off size value) := by
  unfold State.writeTime
  repeat' with_reducible
    first
    | assumption | apply rrCtl_keeps | apply Keeps.ite | split | intro _ | refine Keeps.of_mk ?_ rfl rfl | dsimp only

theorem writeWinctl_keeps {b : State} {s off size value} (hs : Keeps b s) : Keeps b (s.writeWinctl off size value) := by
  unfold State.writeWinctl
  repeat' with_reducible
    first
    | assumption | apply Keeps.ite | split | intro _ | refine Keeps.of_mk ?_ rfl rfl | dsimp only

theorem writeMsix_keeps {b : State} {s v o off size value} (hs : Keeps b s) : Keeps b (s.writeMsix v o off size value) := by
  unfold State.writeMsix
  repeat' with_reducible
    first
    | assumption | apply unmask_keeps | apply Keeps.ite | split | intro _ | refine Keeps.of_mk ?_ rfl rfl | dsimp only

theorem writeSec_keeps {b : State} {s req off size value} (hs : Keeps b s) : Keeps b (s.writeSec req off size value) := by
  unfold State.writeSec
  repeat' with_reducible
    first
    | assumption | apply errorTo_keeps | apply warmReset_keeps | apply partitionResets_keeps | apply coldCommand_keeps
    | refine Keeps.foldl (fun _ _ _ => ?_) _ _ ?_ | apply Keeps.ite | split | intro _ | refine Keeps.of_mk ?_ rfl rfl | dsimp only

theorem writeDie_keeps {b : State} {s req off} (hs : Keeps b s) : Keeps b (s.writeDie req off) := by
  unfold State.writeDie
  repeat' with_reducible
    first
    | assumption | apply ctrlRefused_keeps | apply Keeps.ite | split | intro _ | refine Keeps.of_mk ?_ rfl rfl | dsimp only

theorem regWrite_keeps {b : State} {s req off size value} (hs : Keeps b s) : Keeps b (s.regWrite req off size value) := by
  unfold State.regWrite
  repeat' with_reducible
    first
    | assumption | apply evrRdseq_keeps | apply sesWrite_keeps | apply ring_keeps | apply writeAsz_keeps | apply writePow_keeps
    | apply writeTime_keeps | apply writeWinctl_keeps | apply writeMsix_keeps | apply writeSec_keeps | apply writeDie_keeps
    | apply Keeps.ite | split | intro _ | refine Keeps.of_mk ?_ rfl rfl | dsimp only

theorem vfRegWrite_keeps {b : State} {s vf off size value} (hs : Keeps b s) : Keeps b (s.vfRegWrite vf off size value) := by
  unfold State.vfRegWrite
  repeat' with_reducible
    first
    | assumption | apply ring_keeps | apply writeMsix_keeps | apply Keeps.ite | split | intro _ | refine Keeps.of_mk ?_ rfl rfl | dsimp only

theorem execRegisterWrite_keeps {b : State} {req off size value s} (hs : Keeps b s) :
    KeepsR b (execRegisterWrite req off size value s) := by
  unfold execRegisterWrite
  repeat' with_reducible
    first
    | assumption | apply KeepsR.next | apply ring_keeps | apply regWrite_keeps | apply vfRegWrite_keeps | apply Keeps.ite | apply KeepsR.ite
    | split | intro _ | refine Keeps.of_mk ?_ rfl rfl | dsimp only

/-- The state b with its life cycle changed: what an accepted transition is measured against (16 R375). -/
abbrev State.withLcs (b : State) (l : BitVec 2) : State := { b with sec := { b.sec with lcs := l } }

theorem lcChange_keeps {b : State} {s keys l} (hkeys : ∀ u, (keys u).lcs = l) (hs : Keeps b s) :
    Keeps (b.withLcs l) (s.lcChange keys) := by
  unfold State.lcChange
  extract_lets s1 old s2
  have h1 : Keeps b s1 := stopAll_keeps hs
  clear_value s1
  have h2 : Keeps (b.withLcs l) s2 := ⟨h1.pending, h1.grade, h1.mem, h1.store, hkeys _⟩
  clear_value s2
  with_reducible exact warmReset_keeps (answer_keeps (event_keeps h2))

/-- A life-cycle command: refused, or the transition it authorises. -/
theorem lcCommand_keeps {b : State} {s secure code ok aik keys l} (hkeys : ∀ u, (keys u).lcs = l) (hs : Keeps b s) :
    Keeps b (s.lcCommand secure code ok aik keys) ∨ (ok = true ∧ Keeps (b.withLcs l) (s.lcCommand secure code ok aik keys)) := by
  unfold State.lcCommand
  split
  · exact .inl hs
  · split
    · exact .inl (answer_keeps hs)
    · split
      · exact .inl (lcRefused_keeps hs)
      · rename_i hok
        split
        · exact .inl (lcRefused_keeps hs)
        · split
          · exact .inl (lcRefused_keeps hs)
          · exact .inr ⟨by simpa using hok, lcChange_keeps hkeys hs⟩

end Sys2Proof.Machine
end

