-- ==== Sys2Proof/Laws/State.lean ====
section
/-! SUPPORT. State.lean: what each update of the state leaves as it was, field by field, and what it gives the part it changes. -/

namespace Sys2Proof.Machine

/-! ## modCore -/

@[simp] theorem modCore_pending (s : State) (c : CoreId) (f : Core → Core) : (s.modCore c f).pending = s.pending := rfl
@[simp] theorem modCore_justSet (s : State) (c : CoreId) (f : Core → Core) : (s.modCore c f).justSet = s.justSet := rfl
@[simp] theorem modCore_soft (s : State) (c : CoreId) (f : Core → Core) : (s.modCore c f).soft = s.soft := rfl
@[simp] theorem modCore_softDone (s : State) (c : CoreId) (f : Core → Core) : (s.modCore c f).softDone = s.softDone := rfl
@[simp] theorem modCore_softNext (s : State) (c : CoreId) (f : Core → Core) : (s.modCore c f).softNext = s.softNext := rfl
@[simp] theorem modCore_softUsed (s : State) (c : CoreId) (f : Core → Core) : (s.modCore c f).softUsed = s.softUsed := rfl
@[simp] theorem modCore_fresh (s : State) (c : CoreId) (f : Core → Core) : (s.modCore c f).fresh = s.fresh := rfl
@[simp] theorem modCore_grade (s : State) (c : CoreId) (f : Core → Core) : (s.modCore c f).grade = s.grade := rfl
@[simp] theorem modCore_clk (s : State) (c : CoreId) (f : Core → Core) : (s.modCore c f).clk = s.clk := rfl
@[simp] theorem modCore_mem (s : State) (c : CoreId) (f : Core → Core) : (s.modCore c f).mem = s.mem := rfl
@[simp] theorem modCore_wbuf (s : State) (c : CoreId) (f : Core → Core) : (s.modCore c f).wbuf = s.wbuf := rfl
@[simp] theorem modCore_parts (s : State) (c : CoreId) (f : Core → Core) : (s.modCore c f).parts = s.parts := rfl
@[simp] theorem modCore_pcs (s : State) (c : CoreId) (f : Core → Core) : (s.modCore c f).pcs = s.pcs := rfl
@[simp] theorem modCore_transit (s : State) (c : CoreId) (f : Core → Core) : (s.modCore c f).transit = s.transit := rfl
@[simp] theorem modCore_hbm (s : State) (c : CoreId) (f : Core → Core) : (s.modCore c f).hbm = s.hbm := rfl
@[simp] theorem modCore_net (s : State) (c : CoreId) (f : Core → Core) : (s.modCore c f).net = s.net := rfl
@[simp] theorem modCore_mgrFromDie (s : State) (c : CoreId) (f : Core → Core) : (s.modCore c f).mgrFromDie = s.mgrFromDie := rfl
@[simp] theorem modCore_mgrFromFab (s : State) (c : CoreId) (f : Core → Core) : (s.modCore c f).mgrFromFab = s.mgrFromFab := rfl
@[simp] theorem modCore_services (s : State) (c : CoreId) (f : Core → Core) : (s.modCore c f).services = s.services := rfl
@[simp] theorem modCore_asz (s : State) (c : CoreId) (f : Core → Core) : (s.modCore c f).asz = s.asz := rfl
@[simp] theorem modCore_rr (s : State) (c : CoreId) (f : Core → Core) : (s.modCore c f).rr = s.rr := rfl
@[simp] theorem modCore_host (s : State) (c : CoreId) (f : Core → Core) : (s.modCore c f).host = s.host := rfl
@[simp] theorem modCore_fab (s : State) (c : CoreId) (f : Core → Core) : (s.modCore c f).fab = s.fab := rfl
@[simp] theorem modCore_ev (s : State) (c : CoreId) (f : Core → Core) : (s.modCore c f).ev = s.ev := rfl
@[simp] theorem modCore_pow (s : State) (c : CoreId) (f : Core → Core) : (s.modCore c f).pow = s.pow := rfl
@[simp] theorem modCore_sec (s : State) (c : CoreId) (f : Core → Core) : (s.modCore c f).sec = s.sec := rfl
@[simp] theorem modCore_out (s : State) (c : CoreId) (f : Core → Core) : (s.modCore c f).out = s.out := rfl
@[simp] theorem modCore_part (s : State) (c : CoreId) (f : Core → Core) (p : PartId) : (s.modCore c f).part p = s.part p := rfl

/-! ## modCtl -/

@[simp] theorem modCtl_pending (s : State) (c : CoreId) (f : ControlUnit → ControlUnit) : (s.modCtl c f).pending = s.pending := rfl
@[simp] theorem modCtl_justSet (s : State) (c : CoreId) (f : ControlUnit → ControlUnit) : (s.modCtl c f).justSet = s.justSet := rfl
@[simp] theorem modCtl_soft (s : State) (c : CoreId) (f : ControlUnit → ControlUnit) : (s.modCtl c f).soft = s.soft := rfl
@[simp] theorem modCtl_softDone (s : State) (c : CoreId) (f : ControlUnit → ControlUnit) : (s.modCtl c f).softDone = s.softDone := rfl
@[simp] theorem modCtl_softNext (s : State) (c : CoreId) (f : ControlUnit → ControlUnit) : (s.modCtl c f).softNext = s.softNext := rfl
@[simp] theorem modCtl_softUsed (s : State) (c : CoreId) (f : ControlUnit → ControlUnit) : (s.modCtl c f).softUsed = s.softUsed := rfl
@[simp] theorem modCtl_fresh (s : State) (c : CoreId) (f : ControlUnit → ControlUnit) : (s.modCtl c f).fresh = s.fresh := rfl
@[simp] theorem modCtl_grade (s : State) (c : CoreId) (f : ControlUnit → ControlUnit) : (s.modCtl c f).grade = s.grade := rfl
@[simp] theorem modCtl_clk (s : State) (c : CoreId) (f : ControlUnit → ControlUnit) : (s.modCtl c f).clk = s.clk := rfl
@[simp] theorem modCtl_mem (s : State) (c : CoreId) (f : ControlUnit → ControlUnit) : (s.modCtl c f).mem = s.mem := rfl
@[simp] theorem modCtl_wbuf (s : State) (c : CoreId) (f : ControlUnit → ControlUnit) : (s.modCtl c f).wbuf = s.wbuf := rfl
@[simp] theorem modCtl_parts (s : State) (c : CoreId) (f : ControlUnit → ControlUnit) : (s.modCtl c f).parts = s.parts := rfl
@[simp] theorem modCtl_pcs (s : State) (c : CoreId) (f : ControlUnit → ControlUnit) : (s.modCtl c f).pcs = s.pcs := rfl
@[simp] theorem modCtl_transit (s : State) (c : CoreId) (f : ControlUnit → ControlUnit) : (s.modCtl c f).transit = s.transit := rfl
@[simp] theorem modCtl_hbm (s : State) (c : CoreId) (f : ControlUnit → ControlUnit) : (s.modCtl c f).hbm = s.hbm := rfl
@[simp] theorem modCtl_net (s : State) (c : CoreId) (f : ControlUnit → ControlUnit) : (s.modCtl c f).net = s.net := rfl
@[simp] theorem modCtl_mgrFromDie (s : State) (c : CoreId) (f : ControlUnit → ControlUnit) : (s.modCtl c f).mgrFromDie = s.mgrFromDie := rfl
@[simp] theorem modCtl_mgrFromFab (s : State) (c : CoreId) (f : ControlUnit → ControlUnit) : (s.modCtl c f).mgrFromFab = s.mgrFromFab := rfl
@[simp] theorem modCtl_services (s : State) (c : CoreId) (f : ControlUnit → ControlUnit) : (s.modCtl c f).services = s.services := rfl
@[simp] theorem modCtl_asz (s : State) (c : CoreId) (f : ControlUnit → ControlUnit) : (s.modCtl c f).asz = s.asz := rfl
@[simp] theorem modCtl_rr (s : State) (c : CoreId) (f : ControlUnit → ControlUnit) : (s.modCtl c f).rr = s.rr := rfl
@[simp] theorem modCtl_host (s : State) (c : CoreId) (f : ControlUnit → ControlUnit) : (s.modCtl c f).host = s.host := rfl
@[simp] theorem modCtl_fab (s : State) (c : CoreId) (f : ControlUnit → ControlUnit) : (s.modCtl c f).fab = s.fab := rfl
@[simp] theorem modCtl_ev (s : State) (c : CoreId) (f : ControlUnit → ControlUnit) : (s.modCtl c f).ev = s.ev := rfl
@[simp] theorem modCtl_pow (s : State) (c : CoreId) (f : ControlUnit → ControlUnit) : (s.modCtl c f).pow = s.pow := rfl
@[simp] theorem modCtl_sec (s : State) (c : CoreId) (f : ControlUnit → ControlUnit) : (s.modCtl c f).sec = s.sec := rfl
@[simp] theorem modCtl_out (s : State) (c : CoreId) (f : ControlUnit → ControlUnit) : (s.modCtl c f).out = s.out := rfl
@[simp] theorem modCtl_part (s : State) (c : CoreId) (f : ControlUnit → ControlUnit) (p : PartId) : (s.modCtl c f).part p = s.part p := rfl

/-! ## modVec -/

@[simp] theorem modVec_pending (s : State) (c : CoreId) (f : VectorUnit → VectorUnit) : (s.modVec c f).pending = s.pending := rfl
@[simp] theorem modVec_justSet (s : State) (c : CoreId) (f : VectorUnit → VectorUnit) : (s.modVec c f).justSet = s.justSet := rfl
@[simp] theorem modVec_soft (s : State) (c : CoreId) (f : VectorUnit → VectorUnit) : (s.modVec c f).soft = s.soft := rfl
@[simp] theorem modVec_softDone (s : State) (c : CoreId) (f : VectorUnit → VectorUnit) : (s.modVec c f).softDone = s.softDone := rfl
@[simp] theorem modVec_softNext (s : State) (c : CoreId) (f : VectorUnit → VectorUnit) : (s.modVec c f).softNext = s.softNext := rfl
@[simp] theorem modVec_softUsed (s : State) (c : CoreId) (f : VectorUnit → VectorUnit) : (s.modVec c f).softUsed = s.softUsed := rfl
@[simp] theorem modVec_fresh (s : State) (c : CoreId) (f : VectorUnit → VectorUnit) : (s.modVec c f).fresh = s.fresh := rfl
@[simp] theorem modVec_grade (s : State) (c : CoreId) (f : VectorUnit → VectorUnit) : (s.modVec c f).grade = s.grade := rfl
@[simp] theorem modVec_clk (s : State) (c : CoreId) (f : VectorUnit → VectorUnit) : (s.modVec c f).clk = s.clk := rfl
@[simp] theorem modVec_mem (s : State) (c : CoreId) (f : VectorUnit → VectorUnit) : (s.modVec c f).mem = s.mem := rfl
@[simp] theorem modVec_wbuf (s : State) (c : CoreId) (f : VectorUnit → VectorUnit) : (s.modVec c f).wbuf = s.wbuf := rfl
@[simp] theorem modVec_parts (s : State) (c : CoreId) (f : VectorUnit → VectorUnit) : (s.modVec c f).parts = s.parts := rfl
@[simp] theorem modVec_pcs (s : State) (c : CoreId) (f : VectorUnit → VectorUnit) : (s.modVec c f).pcs = s.pcs := rfl
@[simp] theorem modVec_transit (s : State) (c : CoreId) (f : VectorUnit → VectorUnit) : (s.modVec c f).transit = s.transit := rfl
@[simp] theorem modVec_hbm (s : State) (c : CoreId) (f : VectorUnit → VectorUnit) : (s.modVec c f).hbm = s.hbm := rfl
@[simp] theorem modVec_net (s : State) (c : CoreId) (f : VectorUnit → VectorUnit) : (s.modVec c f).net = s.net := rfl
@[simp] theorem modVec_mgrFromDie (s : State) (c : CoreId) (f : VectorUnit → VectorUnit) : (s.modVec c f).mgrFromDie = s.mgrFromDie := rfl
@[simp] theorem modVec_mgrFromFab (s : State) (c : CoreId) (f : VectorUnit → VectorUnit) : (s.modVec c f).mgrFromFab = s.mgrFromFab := rfl
@[simp] theorem modVec_services (s : State) (c : CoreId) (f : VectorUnit → VectorUnit) : (s.modVec c f).services = s.services := rfl
@[simp] theorem modVec_asz (s : State) (c : CoreId) (f : VectorUnit → VectorUnit) : (s.modVec c f).asz = s.asz := rfl
@[simp] theorem modVec_rr (s : State) (c : CoreId) (f : VectorUnit → VectorUnit) : (s.modVec c f).rr = s.rr := rfl
@[simp] theorem modVec_host (s : State) (c : CoreId) (f : VectorUnit → VectorUnit) : (s.modVec c f).host = s.host := rfl
@[simp] theorem modVec_fab (s : State) (c : CoreId) (f : VectorUnit → VectorUnit) : (s.modVec c f).fab = s.fab := rfl
@[simp] theorem modVec_ev (s : State) (c : CoreId) (f : VectorUnit → VectorUnit) : (s.modVec c f).ev = s.ev := rfl
@[simp] theorem modVec_pow (s : State) (c : CoreId) (f : VectorUnit → VectorUnit) : (s.modVec c f).pow = s.pow := rfl
@[simp] theorem modVec_sec (s : State) (c : CoreId) (f : VectorUnit → VectorUnit) : (s.modVec c f).sec = s.sec := rfl
@[simp] theorem modVec_out (s : State) (c : CoreId) (f : VectorUnit → VectorUnit) : (s.modVec c f).out = s.out := rfl
@[simp] theorem modVec_part (s : State) (c : CoreId) (f : VectorUnit → VectorUnit) (p : PartId) : (s.modVec c f).part p = s.part p := rfl

/-! ## modStr -/

@[simp] theorem modStr_pending (s : State) (c : CoreId) (f : StreamUnit → StreamUnit) : (s.modStr c f).pending = s.pending := rfl
@[simp] theorem modStr_justSet (s : State) (c : CoreId) (f : StreamUnit → StreamUnit) : (s.modStr c f).justSet = s.justSet := rfl
@[simp] theorem modStr_soft (s : State) (c : CoreId) (f : StreamUnit → StreamUnit) : (s.modStr c f).soft = s.soft := rfl
@[simp] theorem modStr_softDone (s : State) (c : CoreId) (f : StreamUnit → StreamUnit) : (s.modStr c f).softDone = s.softDone := rfl
@[simp] theorem modStr_softNext (s : State) (c : CoreId) (f : StreamUnit → StreamUnit) : (s.modStr c f).softNext = s.softNext := rfl
@[simp] theorem modStr_softUsed (s : State) (c : CoreId) (f : StreamUnit → StreamUnit) : (s.modStr c f).softUsed = s.softUsed := rfl
@[simp] theorem modStr_fresh (s : State) (c : CoreId) (f : StreamUnit → StreamUnit) : (s.modStr c f).fresh = s.fresh := rfl
@[simp] theorem modStr_grade (s : State) (c : CoreId) (f : StreamUnit → StreamUnit) : (s.modStr c f).grade = s.grade := rfl
@[simp] theorem modStr_clk (s : State) (c : CoreId) (f : StreamUnit → StreamUnit) : (s.modStr c f).clk = s.clk := rfl
@[simp] theorem modStr_mem (s : State) (c : CoreId) (f : StreamUnit → StreamUnit) : (s.modStr c f).mem = s.mem := rfl
@[simp] theorem modStr_wbuf (s : State) (c : CoreId) (f : StreamUnit → StreamUnit) : (s.modStr c f).wbuf = s.wbuf := rfl
@[simp] theorem modStr_parts (s : State) (c : CoreId) (f : StreamUnit → StreamUnit) : (s.modStr c f).parts = s.parts := rfl
@[simp] theorem modStr_pcs (s : State) (c : CoreId) (f : StreamUnit → StreamUnit) : (s.modStr c f).pcs = s.pcs := rfl
@[simp] theorem modStr_transit (s : State) (c : CoreId) (f : StreamUnit → StreamUnit) : (s.modStr c f).transit = s.transit := rfl
@[simp] theorem modStr_hbm (s : State) (c : CoreId) (f : StreamUnit → StreamUnit) : (s.modStr c f).hbm = s.hbm := rfl
@[simp] theorem modStr_net (s : State) (c : CoreId) (f : StreamUnit → StreamUnit) : (s.modStr c f).net = s.net := rfl
@[simp] theorem modStr_mgrFromDie (s : State) (c : CoreId) (f : StreamUnit → StreamUnit) : (s.modStr c f).mgrFromDie = s.mgrFromDie := rfl
@[simp] theorem modStr_mgrFromFab (s : State) (c : CoreId) (f : StreamUnit → StreamUnit) : (s.modStr c f).mgrFromFab = s.mgrFromFab := rfl
@[simp] theorem modStr_services (s : State) (c : CoreId) (f : StreamUnit → StreamUnit) : (s.modStr c f).services = s.services := rfl
@[simp] theorem modStr_asz (s : State) (c : CoreId) (f : StreamUnit → StreamUnit) : (s.modStr c f).asz = s.asz := rfl
@[simp] theorem modStr_rr (s : State) (c : CoreId) (f : StreamUnit → StreamUnit) : (s.modStr c f).rr = s.rr := rfl
@[simp] theorem modStr_host (s : State) (c : CoreId) (f : StreamUnit → StreamUnit) : (s.modStr c f).host = s.host := rfl
@[simp] theorem modStr_fab (s : State) (c : CoreId) (f : StreamUnit → StreamUnit) : (s.modStr c f).fab = s.fab := rfl
@[simp] theorem modStr_ev (s : State) (c : CoreId) (f : StreamUnit → StreamUnit) : (s.modStr c f).ev = s.ev := rfl
@[simp] theorem modStr_pow (s : State) (c : CoreId) (f : StreamUnit → StreamUnit) : (s.modStr c f).pow = s.pow := rfl
@[simp] theorem modStr_sec (s : State) (c : CoreId) (f : StreamUnit → StreamUnit) : (s.modStr c f).sec = s.sec := rfl
@[simp] theorem modStr_out (s : State) (c : CoreId) (f : StreamUnit → StreamUnit) : (s.modStr c f).out = s.out := rfl
@[simp] theorem modStr_part (s : State) (c : CoreId) (f : StreamUnit → StreamUnit) (p : PartId) : (s.modStr c f).part p = s.part p := rfl

/-! ## modSyn -/

@[simp] theorem modSyn_pending (s : State) (c : CoreId) (f : SyncUnit → SyncUnit) : (s.modSyn c f).pending = s.pending := rfl
@[simp] theorem modSyn_justSet (s : State) (c : CoreId) (f : SyncUnit → SyncUnit) : (s.modSyn c f).justSet = s.justSet := rfl
@[simp] theorem modSyn_soft (s : State) (c : CoreId) (f : SyncUnit → SyncUnit) : (s.modSyn c f).soft = s.soft := rfl
@[simp] theorem modSyn_softDone (s : State) (c : CoreId) (f : SyncUnit → SyncUnit) : (s.modSyn c f).softDone = s.softDone := rfl
@[simp] theorem modSyn_softNext (s : State) (c : CoreId) (f : SyncUnit → SyncUnit) : (s.modSyn c f).softNext = s.softNext := rfl
@[simp] theorem modSyn_softUsed (s : State) (c : CoreId) (f : SyncUnit → SyncUnit) : (s.modSyn c f).softUsed = s.softUsed := rfl
@[simp] theorem modSyn_fresh (s : State) (c : CoreId) (f : SyncUnit → SyncUnit) : (s.modSyn c f).fresh = s.fresh := rfl
@[simp] theorem modSyn_grade (s : State) (c : CoreId) (f : SyncUnit → SyncUnit) : (s.modSyn c f).grade = s.grade := rfl
@[simp] theorem modSyn_clk (s : State) (c : CoreId) (f : SyncUnit → SyncUnit) : (s.modSyn c f).clk = s.clk := rfl
@[simp] theorem modSyn_mem (s : State) (c : CoreId) (f : SyncUnit → SyncUnit) : (s.modSyn c f).mem = s.mem := rfl
@[simp] theorem modSyn_wbuf (s : State) (c : CoreId) (f : SyncUnit → SyncUnit) : (s.modSyn c f).wbuf = s.wbuf := rfl
@[simp] theorem modSyn_parts (s : State) (c : CoreId) (f : SyncUnit → SyncUnit) : (s.modSyn c f).parts = s.parts := rfl
@[simp] theorem modSyn_pcs (s : State) (c : CoreId) (f : SyncUnit → SyncUnit) : (s.modSyn c f).pcs = s.pcs := rfl
@[simp] theorem modSyn_transit (s : State) (c : CoreId) (f : SyncUnit → SyncUnit) : (s.modSyn c f).transit = s.transit := rfl
@[simp] theorem modSyn_hbm (s : State) (c : CoreId) (f : SyncUnit → SyncUnit) : (s.modSyn c f).hbm = s.hbm := rfl
@[simp] theorem modSyn_net (s : State) (c : CoreId) (f : SyncUnit → SyncUnit) : (s.modSyn c f).net = s.net := rfl
@[simp] theorem modSyn_mgrFromDie (s : State) (c : CoreId) (f : SyncUnit → SyncUnit) : (s.modSyn c f).mgrFromDie = s.mgrFromDie := rfl
@[simp] theorem modSyn_mgrFromFab (s : State) (c : CoreId) (f : SyncUnit → SyncUnit) : (s.modSyn c f).mgrFromFab = s.mgrFromFab := rfl
@[simp] theorem modSyn_services (s : State) (c : CoreId) (f : SyncUnit → SyncUnit) : (s.modSyn c f).services = s.services := rfl
@[simp] theorem modSyn_asz (s : State) (c : CoreId) (f : SyncUnit → SyncUnit) : (s.modSyn c f).asz = s.asz := rfl
@[simp] theorem modSyn_rr (s : State) (c : CoreId) (f : SyncUnit → SyncUnit) : (s.modSyn c f).rr = s.rr := rfl
@[simp] theorem modSyn_host (s : State) (c : CoreId) (f : SyncUnit → SyncUnit) : (s.modSyn c f).host = s.host := rfl
@[simp] theorem modSyn_fab (s : State) (c : CoreId) (f : SyncUnit → SyncUnit) : (s.modSyn c f).fab = s.fab := rfl
@[simp] theorem modSyn_ev (s : State) (c : CoreId) (f : SyncUnit → SyncUnit) : (s.modSyn c f).ev = s.ev := rfl
@[simp] theorem modSyn_pow (s : State) (c : CoreId) (f : SyncUnit → SyncUnit) : (s.modSyn c f).pow = s.pow := rfl
@[simp] theorem modSyn_sec (s : State) (c : CoreId) (f : SyncUnit → SyncUnit) : (s.modSyn c f).sec = s.sec := rfl
@[simp] theorem modSyn_out (s : State) (c : CoreId) (f : SyncUnit → SyncUnit) : (s.modSyn c f).out = s.out := rfl
@[simp] theorem modSyn_part (s : State) (c : CoreId) (f : SyncUnit → SyncUnit) (p : PartId) : (s.modSyn c f).part p = s.part p := rfl

/-! ## modMu -/

@[simp] theorem modMu_pending (s : State) (c : CoreId) (f : MessageUnit → MessageUnit) : (s.modMu c f).pending = s.pending := rfl
@[simp] theorem modMu_justSet (s : State) (c : CoreId) (f : MessageUnit → MessageUnit) : (s.modMu c f).justSet = s.justSet := rfl
@[simp] theorem modMu_soft (s : State) (c : CoreId) (f : MessageUnit → MessageUnit) : (s.modMu c f).soft = s.soft := rfl
@[simp] theorem modMu_softDone (s : State) (c : CoreId) (f : MessageUnit → MessageUnit) : (s.modMu c f).softDone = s.softDone := rfl
@[simp] theorem modMu_softNext (s : State) (c : CoreId) (f : MessageUnit → MessageUnit) : (s.modMu c f).softNext = s.softNext := rfl
@[simp] theorem modMu_softUsed (s : State) (c : CoreId) (f : MessageUnit → MessageUnit) : (s.modMu c f).softUsed = s.softUsed := rfl
@[simp] theorem modMu_fresh (s : State) (c : CoreId) (f : MessageUnit → MessageUnit) : (s.modMu c f).fresh = s.fresh := rfl
@[simp] theorem modMu_grade (s : State) (c : CoreId) (f : MessageUnit → MessageUnit) : (s.modMu c f).grade = s.grade := rfl
@[simp] theorem modMu_clk (s : State) (c : CoreId) (f : MessageUnit → MessageUnit) : (s.modMu c f).clk = s.clk := rfl
@[simp] theorem modMu_mem (s : State) (c : CoreId) (f : MessageUnit → MessageUnit) : (s.modMu c f).mem = s.mem := rfl
@[simp] theorem modMu_wbuf (s : State) (c : CoreId) (f : MessageUnit → MessageUnit) : (s.modMu c f).wbuf = s.wbuf := rfl
@[simp] theorem modMu_parts (s : State) (c : CoreId) (f : MessageUnit → MessageUnit) : (s.modMu c f).parts = s.parts := rfl
@[simp] theorem modMu_pcs (s : State) (c : CoreId) (f : MessageUnit → MessageUnit) : (s.modMu c f).pcs = s.pcs := rfl
@[simp] theorem modMu_transit (s : State) (c : CoreId) (f : MessageUnit → MessageUnit) : (s.modMu c f).transit = s.transit := rfl
@[simp] theorem modMu_hbm (s : State) (c : CoreId) (f : MessageUnit → MessageUnit) : (s.modMu c f).hbm = s.hbm := rfl
@[simp] theorem modMu_net (s : State) (c : CoreId) (f : MessageUnit → MessageUnit) : (s.modMu c f).net = s.net := rfl
@[simp] theorem modMu_mgrFromDie (s : State) (c : CoreId) (f : MessageUnit → MessageUnit) : (s.modMu c f).mgrFromDie = s.mgrFromDie := rfl
@[simp] theorem modMu_mgrFromFab (s : State) (c : CoreId) (f : MessageUnit → MessageUnit) : (s.modMu c f).mgrFromFab = s.mgrFromFab := rfl
@[simp] theorem modMu_services (s : State) (c : CoreId) (f : MessageUnit → MessageUnit) : (s.modMu c f).services = s.services := rfl
@[simp] theorem modMu_asz (s : State) (c : CoreId) (f : MessageUnit → MessageUnit) : (s.modMu c f).asz = s.asz := rfl
@[simp] theorem modMu_rr (s : State) (c : CoreId) (f : MessageUnit → MessageUnit) : (s.modMu c f).rr = s.rr := rfl
@[simp] theorem modMu_host (s : State) (c : CoreId) (f : MessageUnit → MessageUnit) : (s.modMu c f).host = s.host := rfl
@[simp] theorem modMu_fab (s : State) (c : CoreId) (f : MessageUnit → MessageUnit) : (s.modMu c f).fab = s.fab := rfl
@[simp] theorem modMu_ev (s : State) (c : CoreId) (f : MessageUnit → MessageUnit) : (s.modMu c f).ev = s.ev := rfl
@[simp] theorem modMu_pow (s : State) (c : CoreId) (f : MessageUnit → MessageUnit) : (s.modMu c f).pow = s.pow := rfl
@[simp] theorem modMu_sec (s : State) (c : CoreId) (f : MessageUnit → MessageUnit) : (s.modMu c f).sec = s.sec := rfl
@[simp] theorem modMu_out (s : State) (c : CoreId) (f : MessageUnit → MessageUnit) : (s.modMu c f).out = s.out := rfl
@[simp] theorem modMu_part (s : State) (c : CoreId) (f : MessageUnit → MessageUnit) (p : PartId) : (s.modMu c f).part p = s.part p := rfl

/-! ## modCfg -/

@[simp] theorem modCfg_pending (s : State) (c : CoreId) (f : CoreConfig → CoreConfig) : (s.modCfg c f).pending = s.pending := rfl
@[simp] theorem modCfg_justSet (s : State) (c : CoreId) (f : CoreConfig → CoreConfig) : (s.modCfg c f).justSet = s.justSet := rfl
@[simp] theorem modCfg_soft (s : State) (c : CoreId) (f : CoreConfig → CoreConfig) : (s.modCfg c f).soft = s.soft := rfl
@[simp] theorem modCfg_softDone (s : State) (c : CoreId) (f : CoreConfig → CoreConfig) : (s.modCfg c f).softDone = s.softDone := rfl
@[simp] theorem modCfg_softNext (s : State) (c : CoreId) (f : CoreConfig → CoreConfig) : (s.modCfg c f).softNext = s.softNext := rfl
@[simp] theorem modCfg_softUsed (s : State) (c : CoreId) (f : CoreConfig → CoreConfig) : (s.modCfg c f).softUsed = s.softUsed := rfl
@[simp] theorem modCfg_fresh (s : State) (c : CoreId) (f : CoreConfig → CoreConfig) : (s.modCfg c f).fresh = s.fresh := rfl
@[simp] theorem modCfg_grade (s : State) (c : CoreId) (f : CoreConfig → CoreConfig) : (s.modCfg c f).grade = s.grade := rfl
@[simp] theorem modCfg_clk (s : State) (c : CoreId) (f : CoreConfig → CoreConfig) : (s.modCfg c f).clk = s.clk := rfl
@[simp] theorem modCfg_mem (s : State) (c : CoreId) (f : CoreConfig → CoreConfig) : (s.modCfg c f).mem = s.mem := rfl
@[simp] theorem modCfg_wbuf (s : State) (c : CoreId) (f : CoreConfig → CoreConfig) : (s.modCfg c f).wbuf = s.wbuf := rfl
@[simp] theorem modCfg_parts (s : State) (c : CoreId) (f : CoreConfig → CoreConfig) : (s.modCfg c f).parts = s.parts := rfl
@[simp] theorem modCfg_pcs (s : State) (c : CoreId) (f : CoreConfig → CoreConfig) : (s.modCfg c f).pcs = s.pcs := rfl
@[simp] theorem modCfg_transit (s : State) (c : CoreId) (f : CoreConfig → CoreConfig) : (s.modCfg c f).transit = s.transit := rfl
@[simp] theorem modCfg_hbm (s : State) (c : CoreId) (f : CoreConfig → CoreConfig) : (s.modCfg c f).hbm = s.hbm := rfl
@[simp] theorem modCfg_net (s : State) (c : CoreId) (f : CoreConfig → CoreConfig) : (s.modCfg c f).net = s.net := rfl
@[simp] theorem modCfg_mgrFromDie (s : State) (c : CoreId) (f : CoreConfig → CoreConfig) : (s.modCfg c f).mgrFromDie = s.mgrFromDie := rfl
@[simp] theorem modCfg_mgrFromFab (s : State) (c : CoreId) (f : CoreConfig → CoreConfig) : (s.modCfg c f).mgrFromFab = s.mgrFromFab := rfl
@[simp] theorem modCfg_services (s : State) (c : CoreId) (f : CoreConfig → CoreConfig) : (s.modCfg c f).services = s.services := rfl
@[simp] theorem modCfg_asz (s : State) (c : CoreId) (f : CoreConfig → CoreConfig) : (s.modCfg c f).asz = s.asz := rfl
@[simp] theorem modCfg_rr (s : State) (c : CoreId) (f : CoreConfig → CoreConfig) : (s.modCfg c f).rr = s.rr := rfl
@[simp] theorem modCfg_host (s : State) (c : CoreId) (f : CoreConfig → CoreConfig) : (s.modCfg c f).host = s.host := rfl
@[simp] theorem modCfg_fab (s : State) (c : CoreId) (f : CoreConfig → CoreConfig) : (s.modCfg c f).fab = s.fab := rfl
@[simp] theorem modCfg_ev (s : State) (c : CoreId) (f : CoreConfig → CoreConfig) : (s.modCfg c f).ev = s.ev := rfl
@[simp] theorem modCfg_pow (s : State) (c : CoreId) (f : CoreConfig → CoreConfig) : (s.modCfg c f).pow = s.pow := rfl
@[simp] theorem modCfg_sec (s : State) (c : CoreId) (f : CoreConfig → CoreConfig) : (s.modCfg c f).sec = s.sec := rfl
@[simp] theorem modCfg_out (s : State) (c : CoreId) (f : CoreConfig → CoreConfig) : (s.modCfg c f).out = s.out := rfl
@[simp] theorem modCfg_part (s : State) (c : CoreId) (f : CoreConfig → CoreConfig) (p : PartId) : (s.modCfg c f).part p = s.part p := rfl

/-! ## modMx -/

@[simp] theorem modMx_pending (s : State) (c : CoreId) (e : EngId) (f : MatrixEngine → MatrixEngine) : (s.modMx c e f).pending = s.pending := rfl
@[simp] theorem modMx_justSet (s : State) (c : CoreId) (e : EngId) (f : MatrixEngine → MatrixEngine) : (s.modMx c e f).justSet = s.justSet := rfl
@[simp] theorem modMx_soft (s : State) (c : CoreId) (e : EngId) (f : MatrixEngine → MatrixEngine) : (s.modMx c e f).soft = s.soft := rfl
@[simp] theorem modMx_softDone (s : State) (c : CoreId) (e : EngId) (f : MatrixEngine → MatrixEngine) : (s.modMx c e f).softDone = s.softDone := rfl
@[simp] theorem modMx_softNext (s : State) (c : CoreId) (e : EngId) (f : MatrixEngine → MatrixEngine) : (s.modMx c e f).softNext = s.softNext := rfl
@[simp] theorem modMx_softUsed (s : State) (c : CoreId) (e : EngId) (f : MatrixEngine → MatrixEngine) : (s.modMx c e f).softUsed = s.softUsed := rfl
@[simp] theorem modMx_fresh (s : State) (c : CoreId) (e : EngId) (f : MatrixEngine → MatrixEngine) : (s.modMx c e f).fresh = s.fresh := rfl
@[simp] theorem modMx_grade (s : State) (c : CoreId) (e : EngId) (f : MatrixEngine → MatrixEngine) : (s.modMx c e f).grade = s.grade := rfl
@[simp] theorem modMx_clk (s : State) (c : CoreId) (e : EngId) (f : MatrixEngine → MatrixEngine) : (s.modMx c e f).clk = s.clk := rfl
@[simp] theorem modMx_mem (s : State) (c : CoreId) (e : EngId) (f : MatrixEngine → MatrixEngine) : (s.modMx c e f).mem = s.mem := rfl
@[simp] theorem modMx_wbuf (s : State) (c : CoreId) (e : EngId) (f : MatrixEngine → MatrixEngine) : (s.modMx c e f).wbuf = s.wbuf := rfl
@[simp] theorem modMx_parts (s : State) (c : CoreId) (e : EngId) (f : MatrixEngine → MatrixEngine) : (s.modMx c e f).parts = s.parts := rfl
@[simp] theorem modMx_pcs (s : State) (c : CoreId) (e : EngId) (f : MatrixEngine → MatrixEngine) : (s.modMx c e f).pcs = s.pcs := rfl
@[simp] theorem modMx_transit (s : State) (c : CoreId) (e : EngId) (f : MatrixEngine → MatrixEngine) : (s.modMx c e f).transit = s.transit := rfl
@[simp] theorem modMx_hbm (s : State) (c : CoreId) (e : EngId) (f : MatrixEngine → MatrixEngine) : (s.modMx c e f).hbm = s.hbm := rfl
@[simp] theorem modMx_net (s : State) (c : CoreId) (e : EngId) (f : MatrixEngine → MatrixEngine) : (s.modMx c e f).net = s.net := rfl
@[simp] theorem modMx_mgrFromDie (s : State) (c : CoreId) (e : EngId) (f : MatrixEngine → MatrixEngine) : (s.modMx c e f).mgrFromDie = s.mgrFromDie := rfl
@[simp] theorem modMx_mgrFromFab (s : State) (c : CoreId) (e : EngId) (f : MatrixEngine → MatrixEngine) : (s.modMx c e f).mgrFromFab = s.mgrFromFab := rfl
@[simp] theorem modMx_services (s : State) (c : CoreId) (e : EngId) (f : MatrixEngine → MatrixEngine) : (s.modMx c e f).services = s.services := rfl
@[simp] theorem modMx_asz (s : State) (c : CoreId) (e : EngId) (f : MatrixEngine → MatrixEngine) : (s.modMx c e f).asz = s.asz := rfl
@[simp] theorem modMx_rr (s : State) (c : CoreId) (e : EngId) (f : MatrixEngine → MatrixEngine) : (s.modMx c e f).rr = s.rr := rfl
@[simp] theorem modMx_host (s : State) (c : CoreId) (e : EngId) (f : MatrixEngine → MatrixEngine) : (s.modMx c e f).host = s.host := rfl
@[simp] theorem modMx_fab (s : State) (c : CoreId) (e : EngId) (f : MatrixEngine → MatrixEngine) : (s.modMx c e f).fab = s.fab := rfl
@[simp] theorem modMx_ev (s : State) (c : CoreId) (e : EngId) (f : MatrixEngine → MatrixEngine) : (s.modMx c e f).ev = s.ev := rfl
@[simp] theorem modMx_pow (s : State) (c : CoreId) (e : EngId) (f : MatrixEngine → MatrixEngine) : (s.modMx c e f).pow = s.pow := rfl
@[simp] theorem modMx_sec (s : State) (c : CoreId) (e : EngId) (f : MatrixEngine → MatrixEngine) : (s.modMx c e f).sec = s.sec := rfl
@[simp] theorem modMx_out (s : State) (c : CoreId) (e : EngId) (f : MatrixEngine → MatrixEngine) : (s.modMx c e f).out = s.out := rfl
@[simp] theorem modMx_part (s : State) (c : CoreId) (e : EngId) (f : MatrixEngine → MatrixEngine) (p : PartId) : (s.modMx c e f).part p = s.part p := rfl

/-! ## modPart -/

@[simp] theorem modPart_pending (s : State) (p : PartId) (f : Part → Part) : (s.modPart p f).pending = s.pending := rfl
@[simp] theorem modPart_justSet (s : State) (p : PartId) (f : Part → Part) : (s.modPart p f).justSet = s.justSet := rfl
@[simp] theorem modPart_soft (s : State) (p : PartId) (f : Part → Part) : (s.modPart p f).soft = s.soft := rfl
@[simp] theorem modPart_softDone (s : State) (p : PartId) (f : Part → Part) : (s.modPart p f).softDone = s.softDone := rfl
@[simp] theorem modPart_softNext (s : State) (p : PartId) (f : Part → Part) : (s.modPart p f).softNext = s.softNext := rfl
@[simp] theorem modPart_softUsed (s : State) (p : PartId) (f : Part → Part) : (s.modPart p f).softUsed = s.softUsed := rfl
@[simp] theorem modPart_fresh (s : State) (p : PartId) (f : Part → Part) : (s.modPart p f).fresh = s.fresh := rfl
@[simp] theorem modPart_grade (s : State) (p : PartId) (f : Part → Part) : (s.modPart p f).grade = s.grade := rfl
@[simp] theorem modPart_clk (s : State) (p : PartId) (f : Part → Part) : (s.modPart p f).clk = s.clk := rfl
@[simp] theorem modPart_mem (s : State) (p : PartId) (f : Part → Part) : (s.modPart p f).mem = s.mem := rfl
@[simp] theorem modPart_wbuf (s : State) (p : PartId) (f : Part → Part) : (s.modPart p f).wbuf = s.wbuf := rfl
@[simp] theorem modPart_cores (s : State) (p : PartId) (f : Part → Part) : (s.modPart p f).cores = s.cores := rfl
@[simp] theorem modPart_pcs (s : State) (p : PartId) (f : Part → Part) : (s.modPart p f).pcs = s.pcs := rfl
@[simp] theorem modPart_transit (s : State) (p : PartId) (f : Part → Part) : (s.modPart p f).transit = s.transit := rfl
@[simp] theorem modPart_hbm (s : State) (p : PartId) (f : Part → Part) : (s.modPart p f).hbm = s.hbm := rfl
@[simp] theorem modPart_net (s : State) (p : PartId) (f : Part → Part) : (s.modPart p f).net = s.net := rfl
@[simp] theorem modPart_mgrFromDie (s : State) (p : PartId) (f : Part → Part) : (s.modPart p f).mgrFromDie = s.mgrFromDie := rfl
@[simp] theorem modPart_mgrFromFab (s : State) (p : PartId) (f : Part → Part) : (s.modPart p f).mgrFromFab = s.mgrFromFab := rfl
@[simp] theorem modPart_services (s : State) (p : PartId) (f : Part → Part) : (s.modPart p f).services = s.services := rfl
@[simp] theorem modPart_asz (s : State) (p : PartId) (f : Part → Part) : (s.modPart p f).asz = s.asz := rfl
@[simp] theorem modPart_rr (s : State) (p : PartId) (f : Part → Part) : (s.modPart p f).rr = s.rr := rfl
@[simp] theorem modPart_host (s : State) (p : PartId) (f : Part → Part) : (s.modPart p f).host = s.host := rfl
@[simp] theorem modPart_fab (s : State) (p : PartId) (f : Part → Part) : (s.modPart p f).fab = s.fab := rfl
@[simp] theorem modPart_ev (s : State) (p : PartId) (f : Part → Part) : (s.modPart p f).ev = s.ev := rfl
@[simp] theorem modPart_pow (s : State) (p : PartId) (f : Part → Part) : (s.modPart p f).pow = s.pow := rfl
@[simp] theorem modPart_sec (s : State) (p : PartId) (f : Part → Part) : (s.modPart p f).sec = s.sec := rfl
@[simp] theorem modPart_out (s : State) (p : PartId) (f : Part → Part) : (s.modPart p f).out = s.out := rfl
@[simp] theorem modPart_core (s : State) (p : PartId) (f : Part → Part) (c : CoreId) : (s.modPart p f).core c = s.core c := rfl

/-! ## modPort -/

@[simp] theorem modPort_pending (s : State) (n : PortId) (f : Port → Port) : (s.modPort n f).pending = s.pending := rfl
@[simp] theorem modPort_justSet (s : State) (n : PortId) (f : Port → Port) : (s.modPort n f).justSet = s.justSet := rfl
@[simp] theorem modPort_soft (s : State) (n : PortId) (f : Port → Port) : (s.modPort n f).soft = s.soft := rfl
@[simp] theorem modPort_softDone (s : State) (n : PortId) (f : Port → Port) : (s.modPort n f).softDone = s.softDone := rfl
@[simp] theorem modPort_softNext (s : State) (n : PortId) (f : Port → Port) : (s.modPort n f).softNext = s.softNext := rfl
@[simp] theorem modPort_softUsed (s : State) (n : PortId) (f : Port → Port) : (s.modPort n f).softUsed = s.softUsed := rfl
@[simp] theorem modPort_fresh (s : State) (n : PortId) (f : Port → Port) : (s.modPort n f).fresh = s.fresh := rfl
@[simp] theorem modPort_grade (s : State) (n : PortId) (f : Port → Port) : (s.modPort n f).grade = s.grade := rfl
@[simp] theorem modPort_clk (s : State) (n : PortId) (f : Port → Port) : (s.modPort n f).clk = s.clk := rfl
@[simp] theorem modPort_mem (s : State) (n : PortId) (f : Port → Port) : (s.modPort n f).mem = s.mem := rfl
@[simp] theorem modPort_wbuf (s : State) (n : PortId) (f : Port → Port) : (s.modPort n f).wbuf = s.wbuf := rfl
@[simp] theorem modPort_cores (s : State) (n : PortId) (f : Port → Port) : (s.modPort n f).cores = s.cores := rfl
@[simp] theorem modPort_parts (s : State) (n : PortId) (f : Port → Port) : (s.modPort n f).parts = s.parts := rfl
@[simp] theorem modPort_pcs (s : State) (n : PortId) (f : Port → Port) : (s.modPort n f).pcs = s.pcs := rfl
@[simp] theorem modPort_transit (s : State) (n : PortId) (f : Port → Port) : (s.modPort n f).transit = s.transit := rfl
@[simp] theorem modPort_hbm (s : State) (n : PortId) (f : Port → Port) : (s.modPort n f).hbm = s.hbm := rfl
@[simp] theorem modPort_net (s : State) (n : PortId) (f : Port → Port) : (s.modPort n f).net = s.net := rfl
@[simp] theorem modPort_mgrFromDie (s : State) (n : PortId) (f : Port → Port) : (s.modPort n f).mgrFromDie = s.mgrFromDie := rfl
@[simp] theorem modPort_mgrFromFab (s : State) (n : PortId) (f : Port → Port) : (s.modPort n f).mgrFromFab = s.mgrFromFab := rfl
@[simp] theorem modPort_services (s : State) (n : PortId) (f : Port → Port) : (s.modPort n f).services = s.services := rfl
@[simp] theorem modPort_asz (s : State) (n : PortId) (f : Port → Port) : (s.modPort n f).asz = s.asz := rfl
@[simp] theorem modPort_rr (s : State) (n : PortId) (f : Port → Port) : (s.modPort n f).rr = s.rr := rfl
@[simp] theorem modPort_host (s : State) (n : PortId) (f : Port → Port) : (s.modPort n f).host = s.host := rfl
@[simp] theorem modPort_ev (s : State) (n : PortId) (f : Port → Port) : (s.modPort n f).ev = s.ev := rfl
@[simp] theorem modPort_pow (s : State) (n : PortId) (f : Port → Port) : (s.modPort n f).pow = s.pow := rfl
@[simp] theorem modPort_sec (s : State) (n : PortId) (f : Port → Port) : (s.modPort n f).sec = s.sec := rfl
@[simp] theorem modPort_out (s : State) (n : PortId) (f : Port → Port) : (s.modPort n f).out = s.out := rfl
@[simp] theorem modPort_core (s : State) (n : PortId) (f : Port → Port) (k : CoreId) : (s.modPort n f).core k = s.core k := rfl
@[simp] theorem modPort_part (s : State) (n : PortId) (f : Port → Port) (q : PartId) : (s.modPort n f).part q = s.part q := rfl

/-! ## emit -/

@[simp] theorem emit_pending (s : State) (o : Output) : (s.emit o).pending = s.pending := rfl
@[simp] theorem emit_justSet (s : State) (o : Output) : (s.emit o).justSet = s.justSet := rfl
@[simp] theorem emit_soft (s : State) (o : Output) : (s.emit o).soft = s.soft := rfl
@[simp] theorem emit_softDone (s : State) (o : Output) : (s.emit o).softDone = s.softDone := rfl
@[simp] theorem emit_softNext (s : State) (o : Output) : (s.emit o).softNext = s.softNext := rfl
@[simp] theorem emit_softUsed (s : State) (o : Output) : (s.emit o).softUsed = s.softUsed := rfl
@[simp] theorem emit_fresh (s : State) (o : Output) : (s.emit o).fresh = s.fresh := rfl
@[simp] theorem emit_grade (s : State) (o : Output) : (s.emit o).grade = s.grade := rfl
@[simp] theorem emit_clk (s : State) (o : Output) : (s.emit o).clk = s.clk := rfl
@[simp] theorem emit_mem (s : State) (o : Output) : (s.emit o).mem = s.mem := rfl
@[simp] theorem emit_wbuf (s : State) (o : Output) : (s.emit o).wbuf = s.wbuf := rfl
@[simp] theorem emit_cores (s : State) (o : Output) : (s.emit o).cores = s.cores := rfl
@[simp] theorem emit_parts (s : State) (o : Output) : (s.emit o).parts = s.parts := rfl
@[simp] theorem emit_pcs (s : State) (o : Output) : (s.emit o).pcs = s.pcs := rfl
@[simp] theorem emit_transit (s : State) (o : Output) : (s.emit o).transit = s.transit := rfl
@[simp] theorem emit_hbm (s : State) (o : Output) : (s.emit o).hbm = s.hbm := rfl
@[simp] theorem emit_net (s : State) (o : Output) : (s.emit o).net = s.net := rfl
@[simp] theorem emit_mgrFromDie (s : State) (o : Output) : (s.emit o).mgrFromDie = s.mgrFromDie := rfl
@[simp] theorem emit_mgrFromFab (s : State) (o : Output) : (s.emit o).mgrFromFab = s.mgrFromFab := rfl
@[simp] theorem emit_services (s : State) (o : Output) : (s.emit o).services = s.services := rfl
@[simp] theorem emit_asz (s : State) (o : Output) : (s.emit o).asz = s.asz := rfl
@[simp] theorem emit_rr (s : State) (o : Output) : (s.emit o).rr = s.rr := rfl
@[simp] theorem emit_host (s : State) (o : Output) : (s.emit o).host = s.host := rfl
@[simp] theorem emit_fab (s : State) (o : Output) : (s.emit o).fab = s.fab := rfl
@[simp] theorem emit_ev (s : State) (o : Output) : (s.emit o).ev = s.ev := rfl
@[simp] theorem emit_pow (s : State) (o : Output) : (s.emit o).pow = s.pow := rfl
@[simp] theorem emit_sec (s : State) (o : Output) : (s.emit o).sec = s.sec := rfl
@[simp] theorem emit_core (s : State) (o : Output) (k : CoreId) : (s.emit o).core k = s.core k := rfl
@[simp] theorem emit_part (s : State) (o : Output) (q : PartId) : (s.emit o).part q = s.part q := rfl

/-! ## event -/

@[simp] theorem event_pending (s : State) (type : Nat) (sev : Fin 8) (p : Option PartId) (c : Option CoreId) (body : List Byte) (v : Option PartId) : (s.event type sev p c body v).pending = s.pending := rfl
@[simp] theorem event_justSet (s : State) (type : Nat) (sev : Fin 8) (p : Option PartId) (c : Option CoreId) (body : List Byte) (v : Option PartId) : (s.event type sev p c body v).justSet = s.justSet := rfl
@[simp] theorem event_soft (s : State) (type : Nat) (sev : Fin 8) (p : Option PartId) (c : Option CoreId) (body : List Byte) (v : Option PartId) : (s.event type sev p c body v).soft = s.soft := rfl
@[simp] theorem event_softDone (s : State) (type : Nat) (sev : Fin 8) (p : Option PartId) (c : Option CoreId) (body : List Byte) (v : Option PartId) : (s.event type sev p c body v).softDone = s.softDone := rfl
@[simp] theorem event_softNext (s : State) (type : Nat) (sev : Fin 8) (p : Option PartId) (c : Option CoreId) (body : List Byte) (v : Option PartId) : (s.event type sev p c body v).softNext = s.softNext := rfl
@[simp] theorem event_softUsed (s : State) (type : Nat) (sev : Fin 8) (p : Option PartId) (c : Option CoreId) (body : List Byte) (v : Option PartId) : (s.event type sev p c body v).softUsed = s.softUsed := rfl
@[simp] theorem event_fresh (s : State) (type : Nat) (sev : Fin 8) (p : Option PartId) (c : Option CoreId) (body : List Byte) (v : Option PartId) : (s.event type sev p c body v).fresh = s.fresh := rfl
@[simp] theorem event_grade (s : State) (type : Nat) (sev : Fin 8) (p : Option PartId) (c : Option CoreId) (body : List Byte) (v : Option PartId) : (s.event type sev p c body v).grade = s.grade := rfl
@[simp] theorem event_clk (s : State) (type : Nat) (sev : Fin 8) (p : Option PartId) (c : Option CoreId) (body : List Byte) (v : Option PartId) : (s.event type sev p c body v).clk = s.clk := rfl
@[simp] theorem event_mem (s : State) (type : Nat) (sev : Fin 8) (p : Option PartId) (c : Option CoreId) (body : List Byte) (v : Option PartId) : (s.event type sev p c body v).mem = s.mem := rfl
@[simp] theorem event_wbuf (s : State) (type : Nat) (sev : Fin 8) (p : Option PartId) (c : Option CoreId) (body : List Byte) (v : Option PartId) : (s.event type sev p c body v).wbuf = s.wbuf := rfl
@[simp] theorem event_cores (s : State) (type : Nat) (sev : Fin 8) (p : Option PartId) (c : Option CoreId) (body : List Byte) (v : Option PartId) : (s.event type sev p c body v).cores = s.cores := rfl
@[simp] theorem event_parts (s : State) (type : Nat) (sev : Fin 8) (p : Option PartId) (c : Option CoreId) (body : List Byte) (v : Option PartId) : (s.event type sev p c body v).parts = s.parts := rfl
@[simp] theorem event_pcs (s : State) (type : Nat) (sev : Fin 8) (p : Option PartId) (c : Option CoreId) (body : List Byte) (v : Option PartId) : (s.event type sev p c body v).pcs = s.pcs := rfl
@[simp] theorem event_transit (s : State) (type : Nat) (sev : Fin 8) (p : Option PartId) (c : Option CoreId) (body : List Byte) (v : Option PartId) : (s.event type sev p c body v).transit = s.transit := rfl
@[simp] theorem event_hbm (s : State) (type : Nat) (sev : Fin 8) (p : Option PartId) (c : Option CoreId) (body : List Byte) (v : Option PartId) : (s.event type sev p c body v).hbm = s.hbm := rfl
@[simp] theorem event_net (s : State) (type : Nat) (sev : Fin 8) (p : Option PartId) (c : Option CoreId) (body : List Byte) (v : Option PartId) : (s.event type sev p c body v).net = s.net := rfl
@[simp] theorem event_mgrFromDie (s : State) (type : Nat) (sev : Fin 8) (p : Option PartId) (c : Option CoreId) (body : List Byte) (v : Option PartId) : (s.event type sev p c body v).mgrFromDie = s.mgrFromDie := rfl
@[simp] theorem event_mgrFromFab (s : State) (type : Nat) (sev : Fin 8) (p : Option PartId) (c : Option CoreId) (body : List Byte) (v : Option PartId) : (s.event type sev p c body v).mgrFromFab = s.mgrFromFab := rfl
@[simp] theorem event_services (s : State) (type : Nat) (sev : Fin 8) (p : Option PartId) (c : Option CoreId) (body : List Byte) (v : Option PartId) : (s.event type sev p c body v).services = s.services := rfl
@[simp] theorem event_asz (s : State) (type : Nat) (sev : Fin 8) (p : Option PartId) (c : Option CoreId) (body : List Byte) (v : Option PartId) : (s.event type sev p c body v).asz = s.asz := rfl
@[simp] theorem event_rr (s : State) (type : Nat) (sev : Fin 8) (p : Option PartId) (c : Option CoreId) (body : List Byte) (v : Option PartId) : (s.event type sev p c body v).rr = s.rr := rfl
@[simp] theorem event_host (s : State) (type : Nat) (sev : Fin 8) (p : Option PartId) (c : Option CoreId) (body : List Byte) (v : Option PartId) : (s.event type sev p c body v).host = s.host := rfl
@[simp] theorem event_fab (s : State) (type : Nat) (sev : Fin 8) (p : Option PartId) (c : Option CoreId) (body : List Byte) (v : Option PartId) : (s.event type sev p c body v).fab = s.fab := rfl
@[simp] theorem event_pow (s : State) (type : Nat) (sev : Fin 8) (p : Option PartId) (c : Option CoreId) (body : List Byte) (v : Option PartId) : (s.event type sev p c body v).pow = s.pow := rfl
@[simp] theorem event_sec (s : State) (type : Nat) (sev : Fin 8) (p : Option PartId) (c : Option CoreId) (body : List Byte) (v : Option PartId) : (s.event type sev p c body v).sec = s.sec := rfl
@[simp] theorem event_out (s : State) (type : Nat) (sev : Fin 8) (p : Option PartId) (c : Option CoreId) (body : List Byte) (v : Option PartId) : (s.event type sev p c body v).out = s.out := rfl
@[simp] theorem event_core (s : State) (type : Nat) (sev : Fin 8) (p : Option PartId) (c : Option CoreId) (body : List Byte) (v : Option PartId) (k : CoreId) : (s.event type sev p c body v).core k = s.core k := rfl
@[simp] theorem event_part (s : State) (type : Nat) (sev : Fin 8) (p : Option PartId) (c : Option CoreId) (body : List Byte) (v : Option PartId) (q : PartId) : (s.event type sev p c body v).part q = s.part q := rfl

/-! ## sendMsg -/

@[simp] theorem sendMsg_pending (s : State) (m : Msg) : (s.sendMsg m).pending = s.pending := rfl
@[simp] theorem sendMsg_justSet (s : State) (m : Msg) : (s.sendMsg m).justSet = s.justSet := rfl
@[simp] theorem sendMsg_soft (s : State) (m : Msg) : (s.sendMsg m).soft = s.soft := rfl
@[simp] theorem sendMsg_softDone (s : State) (m : Msg) : (s.sendMsg m).softDone = s.softDone := rfl
@[simp] theorem sendMsg_softNext (s : State) (m : Msg) : (s.sendMsg m).softNext = s.softNext := rfl
@[simp] theorem sendMsg_softUsed (s : State) (m : Msg) : (s.sendMsg m).softUsed = s.softUsed := rfl
@[simp] theorem sendMsg_fresh (s : State) (m : Msg) : (s.sendMsg m).fresh = s.fresh := rfl
@[simp] theorem sendMsg_grade (s : State) (m : Msg) : (s.sendMsg m).grade = s.grade := rfl
@[simp] theorem sendMsg_clk (s : State) (m : Msg) : (s.sendMsg m).clk = s.clk := rfl
@[simp] theorem sendMsg_mem (s : State) (m : Msg) : (s.sendMsg m).mem = s.mem := rfl
@[simp] theorem sendMsg_wbuf (s : State) (m : Msg) : (s.sendMsg m).wbuf = s.wbuf := rfl
@[simp] theorem sendMsg_cores (s : State) (m : Msg) : (s.sendMsg m).cores = s.cores := rfl
@[simp] theorem sendMsg_parts (s : State) (m : Msg) : (s.sendMsg m).parts = s.parts := rfl
@[simp] theorem sendMsg_pcs (s : State) (m : Msg) : (s.sendMsg m).pcs = s.pcs := rfl
@[simp] theorem sendMsg_transit (s : State) (m : Msg) : (s.sendMsg m).transit = s.transit := rfl
@[simp] theorem sendMsg_hbm (s : State) (m : Msg) : (s.sendMsg m).hbm = s.hbm := rfl
@[simp] theorem sendMsg_mgrFromDie (s : State) (m : Msg) : (s.sendMsg m).mgrFromDie = s.mgrFromDie := rfl
@[simp] theorem sendMsg_mgrFromFab (s : State) (m : Msg) : (s.sendMsg m).mgrFromFab = s.mgrFromFab := rfl
@[simp] theorem sendMsg_services (s : State) (m : Msg) : (s.sendMsg m).services = s.services := rfl
@[simp] theorem sendMsg_asz (s : State) (m : Msg) : (s.sendMsg m).asz = s.asz := rfl
@[simp] theorem sendMsg_rr (s : State) (m : Msg) : (s.sendMsg m).rr = s.rr := rfl
@[simp] theorem sendMsg_host (s : State) (m : Msg) : (s.sendMsg m).host = s.host := rfl
@[simp] theorem sendMsg_fab (s : State) (m : Msg) : (s.sendMsg m).fab = s.fab := rfl
@[simp] theorem sendMsg_ev (s : State) (m : Msg) : (s.sendMsg m).ev = s.ev := rfl
@[simp] theorem sendMsg_pow (s : State) (m : Msg) : (s.sendMsg m).pow = s.pow := rfl
@[simp] theorem sendMsg_sec (s : State) (m : Msg) : (s.sendMsg m).sec = s.sec := rfl
@[simp] theorem sendMsg_out (s : State) (m : Msg) : (s.sendMsg m).out = s.out := rfl
@[simp] theorem sendMsg_core (s : State) (m : Msg) (k : CoreId) : (s.sendMsg m).core k = s.core k := rfl
@[simp] theorem sendMsg_part (s : State) (m : Msg) (q : PartId) : (s.sendMsg m).part q = s.part q := rfl

/-! ## laterLine -/

@[simp] theorem laterLine_pending (s : State) (a : Nat) (l : Line) : (s.laterLine a l).pending = s.pending := rfl
@[simp] theorem laterLine_justSet (s : State) (a : Nat) (l : Line) : (s.laterLine a l).justSet = s.justSet := rfl
@[simp] theorem laterLine_soft (s : State) (a : Nat) (l : Line) : (s.laterLine a l).soft = s.soft := rfl
@[simp] theorem laterLine_softDone (s : State) (a : Nat) (l : Line) : (s.laterLine a l).softDone = s.softDone := rfl
@[simp] theorem laterLine_softNext (s : State) (a : Nat) (l : Line) : (s.laterLine a l).softNext = s.softNext := rfl
@[simp] theorem laterLine_softUsed (s : State) (a : Nat) (l : Line) : (s.laterLine a l).softUsed = s.softUsed := rfl
@[simp] theorem laterLine_fresh (s : State) (a : Nat) (l : Line) : (s.laterLine a l).fresh = s.fresh := rfl
@[simp] theorem laterLine_grade (s : State) (a : Nat) (l : Line) : (s.laterLine a l).grade = s.grade := rfl
@[simp] theorem laterLine_clk (s : State) (a : Nat) (l : Line) : (s.laterLine a l).clk = s.clk := rfl
@[simp] theorem laterLine_mem (s : State) (a : Nat) (l : Line) : (s.laterLine a l).mem = s.mem := rfl
@[simp] theorem laterLine_cores (s : State) (a : Nat) (l : Line) : (s.laterLine a l).cores = s.cores := rfl
@[simp] theorem laterLine_parts (s : State) (a : Nat) (l : Line) : (s.laterLine a l).parts = s.parts := rfl
@[simp] theorem laterLine_pcs (s : State) (a : Nat) (l : Line) : (s.laterLine a l).pcs = s.pcs := rfl
@[simp] theorem laterLine_transit (s : State) (a : Nat) (l : Line) : (s.laterLine a l).transit = s.transit := rfl
@[simp] theorem laterLine_hbm (s : State) (a : Nat) (l : Line) : (s.laterLine a l).hbm = s.hbm := rfl
@[simp] theorem laterLine_net (s : State) (a : Nat) (l : Line) : (s.laterLine a l).net = s.net := rfl
@[simp] theorem laterLine_mgrFromDie (s : State) (a : Nat) (l : Line) : (s.laterLine a l).mgrFromDie = s.mgrFromDie := rfl
@[simp] theorem laterLine_mgrFromFab (s : State) (a : Nat) (l : Line) : (s.laterLine a l).mgrFromFab = s.mgrFromFab := rfl
@[simp] theorem laterLine_services (s : State) (a : Nat) (l : Line) : (s.laterLine a l).services = s.services := rfl
@[simp] theorem laterLine_asz (s : State) (a : Nat) (l : Line) : (s.laterLine a l).asz = s.asz := rfl
@[simp] theorem laterLine_rr (s : State) (a : Nat) (l : Line) : (s.laterLine a l).rr = s.rr := rfl
@[simp] theorem laterLine_host (s : State) (a : Nat) (l : Line) : (s.laterLine a l).host = s.host := rfl
@[simp] theorem laterLine_fab (s : State) (a : Nat) (l : Line) : (s.laterLine a l).fab = s.fab := rfl
@[simp] theorem laterLine_ev (s : State) (a : Nat) (l : Line) : (s.laterLine a l).ev = s.ev := rfl
@[simp] theorem laterLine_pow (s : State) (a : Nat) (l : Line) : (s.laterLine a l).pow = s.pow := rfl
@[simp] theorem laterLine_sec (s : State) (a : Nat) (l : Line) : (s.laterLine a l).sec = s.sec := rfl
@[simp] theorem laterLine_out (s : State) (a : Nat) (l : Line) : (s.laterLine a l).out = s.out := rfl
@[simp] theorem laterLine_core (s : State) (a : Nat) (l : Line) (k : CoreId) : (s.laterLine a l).core k = s.core k := rfl
@[simp] theorem laterLine_part (s : State) (a : Nat) (l : Line) (q : PartId) : (s.laterLine a l).part q = s.part q := rfl

/-! ## sendHbm -/

@[simp] theorem sendHbm_pending (s : State) (c : CoreId) (t place ch : Nat) (r : HbmReq) : (s.sendHbm c t place ch r).pending = s.pending := rfl
@[simp] theorem sendHbm_justSet (s : State) (c : CoreId) (t place ch : Nat) (r : HbmReq) : (s.sendHbm c t place ch r).justSet = s.justSet := rfl
@[simp] theorem sendHbm_soft (s : State) (c : CoreId) (t place ch : Nat) (r : HbmReq) : (s.sendHbm c t place ch r).soft = s.soft := rfl
@[simp] theorem sendHbm_softDone (s : State) (c : CoreId) (t place ch : Nat) (r : HbmReq) : (s.sendHbm c t place ch r).softDone = s.softDone := rfl
@[simp] theorem sendHbm_softNext (s : State) (c : CoreId) (t place ch : Nat) (r : HbmReq) : (s.sendHbm c t place ch r).softNext = s.softNext := rfl
@[simp] theorem sendHbm_softUsed (s : State) (c : CoreId) (t place ch : Nat) (r : HbmReq) : (s.sendHbm c t place ch r).softUsed = s.softUsed := rfl
@[simp] theorem sendHbm_fresh (s : State) (c : CoreId) (t place ch : Nat) (r : HbmReq) : (s.sendHbm c t place ch r).fresh = s.fresh := rfl
@[simp] theorem sendHbm_grade (s : State) (c : CoreId) (t place ch : Nat) (r : HbmReq) : (s.sendHbm c t place ch r).grade = s.grade := rfl
@[simp] theorem sendHbm_clk (s : State) (c : CoreId) (t place ch : Nat) (r : HbmReq) : (s.sendHbm c t place ch r).clk = s.clk := rfl
@[simp] theorem sendHbm_mem (s : State) (c : CoreId) (t place ch : Nat) (r : HbmReq) : (s.sendHbm c t place ch r).mem = s.mem := rfl
@[simp] theorem sendHbm_wbuf (s : State) (c : CoreId) (t place ch : Nat) (r : HbmReq) : (s.sendHbm c t place ch r).wbuf = s.wbuf := rfl
@[simp] theorem sendHbm_cores (s : State) (c : CoreId) (t place ch : Nat) (r : HbmReq) : (s.sendHbm c t place ch r).cores = s.cores := rfl
@[simp] theorem sendHbm_parts (s : State) (c : CoreId) (t place ch : Nat) (r : HbmReq) : (s.sendHbm c t place ch r).parts = s.parts := rfl
@[simp] theorem sendHbm_pcs (s : State) (c : CoreId) (t place ch : Nat) (r : HbmReq) : (s.sendHbm c t place ch r).pcs = s.pcs := rfl
@[simp] theorem sendHbm_hbm (s : State) (c : CoreId) (t place ch : Nat) (r : HbmReq) : (s.sendHbm c t place ch r).hbm = s.hbm := rfl
@[simp] theorem sendHbm_net (s : State) (c : CoreId) (t place ch : Nat) (r : HbmReq) : (s.sendHbm c t place ch r).net = s.net := rfl
@[simp] theorem sendHbm_mgrFromDie (s : State) (c : CoreId) (t place ch : Nat) (r : HbmReq) : (s.sendHbm c t place ch r).mgrFromDie = s.mgrFromDie := rfl
@[simp] theorem sendHbm_mgrFromFab (s : State) (c : CoreId) (t place ch : Nat) (r : HbmReq) : (s.sendHbm c t place ch r).mgrFromFab = s.mgrFromFab := rfl
@[simp] theorem sendHbm_services (s : State) (c : CoreId) (t place ch : Nat) (r : HbmReq) : (s.sendHbm c t place ch r).services = s.services := rfl
@[simp] theorem sendHbm_asz (s : State) (c : CoreId) (t place ch : Nat) (r : HbmReq) : (s.sendHbm c t place ch r).asz = s.asz := rfl
@[simp] theorem sendHbm_rr (s : State) (c : CoreId) (t place ch : Nat) (r : HbmReq) : (s.sendHbm c t place ch r).rr = s.rr := rfl
@[simp] theorem sendHbm_host (s : State) (c : CoreId) (t place ch : Nat) (r : HbmReq) : (s.sendHbm c t place ch r).host = s.host := rfl
@[simp] theorem sendHbm_fab (s : State) (c : CoreId) (t place ch : Nat) (r : HbmReq) : (s.sendHbm c t place ch r).fab = s.fab := rfl
@[simp] theorem sendHbm_ev (s : State) (c : CoreId) (t place ch : Nat) (r : HbmReq) : (s.sendHbm c t place ch r).ev = s.ev := rfl
@[simp] theorem sendHbm_pow (s : State) (c : CoreId) (t place ch : Nat) (r : HbmReq) : (s.sendHbm c t place ch r).pow = s.pow := rfl
@[simp] theorem sendHbm_sec (s : State) (c : CoreId) (t place ch : Nat) (r : HbmReq) : (s.sendHbm c t place ch r).sec = s.sec := rfl
@[simp] theorem sendHbm_out (s : State) (c : CoreId) (t place ch : Nat) (r : HbmReq) : (s.sendHbm c t place ch r).out = s.out := rfl
@[simp] theorem sendHbm_core (s : State) (c : CoreId) (t place ch : Nat) (r : HbmReq) (k : CoreId) : (s.sendHbm c t place ch r).core k = s.core k := rfl
@[simp] theorem sendHbm_part (s : State) (c : CoreId) (t place ch : Nat) (r : HbmReq) (q : PartId) : (s.sendHbm c t place ch r).part q = s.part q := rfl

/-! ## modAct -/

@[simp] theorem modAct_pending (s : State) (n : Nat) (f : Activity → Activity) : (s.modAct n f).pending = s.pending := rfl
@[simp] theorem modAct_justSet (s : State) (n : Nat) (f : Activity → Activity) : (s.modAct n f).justSet = s.justSet := rfl
@[simp] theorem modAct_soft (s : State) (n : Nat) (f : Activity → Activity) : (s.modAct n f).soft = s.soft := rfl
@[simp] theorem modAct_softDone (s : State) (n : Nat) (f : Activity → Activity) : (s.modAct n f).softDone = s.softDone := rfl
@[simp] theorem modAct_softNext (s : State) (n : Nat) (f : Activity → Activity) : (s.modAct n f).softNext = s.softNext := rfl
@[simp] theorem modAct_softUsed (s : State) (n : Nat) (f : Activity → Activity) : (s.modAct n f).softUsed = s.softUsed := rfl
@[simp] theorem modAct_fresh (s : State) (n : Nat) (f : Activity → Activity) : (s.modAct n f).fresh = s.fresh := rfl
@[simp] theorem modAct_grade (s : State) (n : Nat) (f : Activity → Activity) : (s.modAct n f).grade = s.grade := rfl
@[simp] theorem modAct_clk (s : State) (n : Nat) (f : Activity → Activity) : (s.modAct n f).clk = s.clk := rfl
@[simp] theorem modAct_mem (s : State) (n : Nat) (f : Activity → Activity) : (s.modAct n f).mem = s.mem := rfl
@[simp] theorem modAct_wbuf (s : State) (n : Nat) (f : Activity → Activity) : (s.modAct n f).wbuf = s.wbuf := rfl
@[simp] theorem modAct_cores (s : State) (n : Nat) (f : Activity → Activity) : (s.modAct n f).cores = s.cores := rfl
@[simp] theorem modAct_parts (s : State) (n : Nat) (f : Activity → Activity) : (s.modAct n f).parts = s.parts := rfl
@[simp] theorem modAct_pcs (s : State) (n : Nat) (f : Activity → Activity) : (s.modAct n f).pcs = s.pcs := rfl
@[simp] theorem modAct_transit (s : State) (n : Nat) (f : Activity → Activity) : (s.modAct n f).transit = s.transit := rfl
@[simp] theorem modAct_hbm (s : State) (n : Nat) (f : Activity → Activity) : (s.modAct n f).hbm = s.hbm := rfl
@[simp] theorem modAct_net (s : State) (n : Nat) (f : Activity → Activity) : (s.modAct n f).net = s.net := rfl
@[simp] theorem modAct_mgrFromDie (s : State) (n : Nat) (f : Activity → Activity) : (s.modAct n f).mgrFromDie = s.mgrFromDie := rfl
@[simp] theorem modAct_mgrFromFab (s : State) (n : Nat) (f : Activity → Activity) : (s.modAct n f).mgrFromFab = s.mgrFromFab := rfl
@[simp] theorem modAct_services (s : State) (n : Nat) (f : Activity → Activity) : (s.modAct n f).services = s.services := rfl
@[simp] theorem modAct_rr (s : State) (n : Nat) (f : Activity → Activity) : (s.modAct n f).rr = s.rr := rfl
@[simp] theorem modAct_host (s : State) (n : Nat) (f : Activity → Activity) : (s.modAct n f).host = s.host := rfl
@[simp] theorem modAct_fab (s : State) (n : Nat) (f : Activity → Activity) : (s.modAct n f).fab = s.fab := rfl
@[simp] theorem modAct_ev (s : State) (n : Nat) (f : Activity → Activity) : (s.modAct n f).ev = s.ev := rfl
@[simp] theorem modAct_pow (s : State) (n : Nat) (f : Activity → Activity) : (s.modAct n f).pow = s.pow := rfl
@[simp] theorem modAct_sec (s : State) (n : Nat) (f : Activity → Activity) : (s.modAct n f).sec = s.sec := rfl
@[simp] theorem modAct_out (s : State) (n : Nat) (f : Activity → Activity) : (s.modAct n f).out = s.out := rfl
@[simp] theorem modAct_core (s : State) (n : Nat) (f : Activity → Activity) (k : CoreId) : (s.modAct n f).core k = s.core k := rfl
@[simp] theorem modAct_part (s : State) (n : Nat) (f : Activity → Activity) (q : PartId) : (s.modAct n f).part q = s.part q := rfl

/-! ## modSession -/

@[simp] theorem modSession_pending (s : State) (n : Nat) (f : Session → Session) : (s.modSession n f).pending = s.pending := rfl
@[simp] theorem modSession_justSet (s : State) (n : Nat) (f : Session → Session) : (s.modSession n f).justSet = s.justSet := rfl
@[simp] theorem modSession_soft (s : State) (n : Nat) (f : Session → Session) : (s.modSession n f).soft = s.soft := rfl
@[simp] theorem modSession_softDone (s : State) (n : Nat) (f : Session → Session) : (s.modSession n f).softDone = s.softDone := rfl
@[simp] theorem modSession_softNext (s : State) (n : Nat) (f : Session → Session) : (s.modSession n f).softNext = s.softNext := rfl
@[simp] theorem modSession_softUsed (s : State) (n : Nat) (f : Session → Session) : (s.modSession n f).softUsed = s.softUsed := rfl
@[simp] theorem modSession_fresh (s : State) (n : Nat) (f : Session → Session) : (s.modSession n f).fresh = s.fresh := rfl
@[simp] theorem modSession_grade (s : State) (n : Nat) (f : Session → Session) : (s.modSession n f).grade = s.grade := rfl
@[simp] theorem modSession_clk (s : State) (n : Nat) (f : Session → Session) : (s.modSession n f).clk = s.clk := rfl
@[simp] theorem modSession_mem (s : State) (n : Nat) (f : Session → Session) : (s.modSession n f).mem = s.mem := rfl
@[simp] theorem modSession_wbuf (s : State) (n : Nat) (f : Session → Session) : (s.modSession n f).wbuf = s.wbuf := rfl
@[simp] theorem modSession_cores (s : State) (n : Nat) (f : Session → Session) : (s.modSession n f).cores = s.cores := rfl
@[simp] theorem modSession_parts (s : State) (n : Nat) (f : Session → Session) : (s.modSession n f).parts = s.parts := rfl
@[simp] theorem modSession_pcs (s : State) (n : Nat) (f : Session → Session) : (s.modSession n f).pcs = s.pcs := rfl
@[simp] theorem modSession_transit (s : State) (n : Nat) (f : Session → Session) : (s.modSession n f).transit = s.transit := rfl
@[simp] theorem modSession_hbm (s : State) (n : Nat) (f : Session → Session) : (s.modSession n f).hbm = s.hbm := rfl
@[simp] theorem modSession_net (s : State) (n : Nat) (f : Session → Session) : (s.modSession n f).net = s.net := rfl
@[simp] theorem modSession_mgrFromDie (s : State) (n : Nat) (f : Session → Session) : (s.modSession n f).mgrFromDie = s.mgrFromDie := rfl
@[simp] theorem modSession_mgrFromFab (s : State) (n : Nat) (f : Session → Session) : (s.modSession n f).mgrFromFab = s.mgrFromFab := rfl
@[simp] theorem modSession_services (s : State) (n : Nat) (f : Session → Session) : (s.modSession n f).services = s.services := rfl
@[simp] theorem modSession_asz (s : State) (n : Nat) (f : Session → Session) : (s.modSession n f).asz = s.asz := rfl
@[simp] theorem modSession_rr (s : State) (n : Nat) (f : Session → Session) : (s.modSession n f).rr = s.rr := rfl
@[simp] theorem modSession_fab (s : State) (n : Nat) (f : Session → Session) : (s.modSession n f).fab = s.fab := rfl
@[simp] theorem modSession_ev (s : State) (n : Nat) (f : Session → Session) : (s.modSession n f).ev = s.ev := rfl
@[simp] theorem modSession_pow (s : State) (n : Nat) (f : Session → Session) : (s.modSession n f).pow = s.pow := rfl
@[simp] theorem modSession_sec (s : State) (n : Nat) (f : Session → Session) : (s.modSession n f).sec = s.sec := rfl
@[simp] theorem modSession_out (s : State) (n : Nat) (f : Session → Session) : (s.modSession n f).out = s.out := rfl
@[simp] theorem modSession_core (s : State) (n : Nat) (f : Session → Session) (k : CoreId) : (s.modSession n f).core k = s.core k := rfl
@[simp] theorem modSession_part (s : State) (n : Nat) (f : Session → Session) (q : PartId) : (s.modSession n f).part q = s.part q := rfl

/-! ## The part an update changes -/

@[simp] theorem core_modCore_self (s : State) (c : CoreId) (f : Core → Core) : (s.modCore c f).core c = f (s.core c) := by
  simp [State.core, State.modCore]
theorem core_modCore_ne (s : State) (c d : CoreId) (f : Core → Core) (h : d ≠ c) : (s.modCore c f).core d = s.core d := by
  simp only [State.core, State.modCore]
  exact Vector.getElem_set_ne c.isLt d.isLt (fun e => h (Fin.ext e.symm))
@[simp] theorem part_modPart_self (s : State) (p : PartId) (f : Part → Part) : (s.modPart p f).part p = f (s.part p) := by
  simp [State.part, State.modPart]
theorem part_modPart_ne (s : State) (p q : PartId) (f : Part → Part) (h : q ≠ p) : (s.modPart p f).part q = s.part q := by
  simp only [State.part, State.modPart]
  exact Vector.getElem_set_ne p.isLt q.isLt (fun e => h (Fin.ext e.symm))
@[simp] theorem core_modCtl_self (s : State) (c : CoreId) (f : ControlUnit → ControlUnit) : (s.modCtl c f).core c = { s.core c with ctl := f (s.core c).ctl } :=
  core_modCore_self s c _
theorem core_modCtl_ne (s : State) (c d : CoreId) (f : ControlUnit → ControlUnit) (h : d ≠ c) : (s.modCtl c f).core d = s.core d := core_modCore_ne s c d _ h
@[simp] theorem core_modVec_self (s : State) (c : CoreId) (f : VectorUnit → VectorUnit) : (s.modVec c f).core c = { s.core c with vec := f (s.core c).vec } :=
  core_modCore_self s c _
theorem core_modVec_ne (s : State) (c d : CoreId) (f : VectorUnit → VectorUnit) (h : d ≠ c) : (s.modVec c f).core d = s.core d := core_modCore_ne s c d _ h
@[simp] theorem core_modStr_self (s : State) (c : CoreId) (f : StreamUnit → StreamUnit) : (s.modStr c f).core c = { s.core c with str := f (s.core c).str } :=
  core_modCore_self s c _
theorem core_modStr_ne (s : State) (c d : CoreId) (f : StreamUnit → StreamUnit) (h : d ≠ c) : (s.modStr c f).core d = s.core d := core_modCore_ne s c d _ h
@[simp] theorem core_modSyn_self (s : State) (c : CoreId) (f : SyncUnit → SyncUnit) : (s.modSyn c f).core c = { s.core c with syn := f (s.core c).syn } :=
  core_modCore_self s c _
theorem core_modSyn_ne (s : State) (c d : CoreId) (f : SyncUnit → SyncUnit) (h : d ≠ c) : (s.modSyn c f).core d = s.core d := core_modCore_ne s c d _ h
@[simp] theorem core_modMu_self (s : State) (c : CoreId) (f : MessageUnit → MessageUnit) : (s.modMu c f).core c = { s.core c with mu := f (s.core c).mu } :=
  core_modCore_self s c _
theorem core_modMu_ne (s : State) (c d : CoreId) (f : MessageUnit → MessageUnit) (h : d ≠ c) : (s.modMu c f).core d = s.core d := core_modCore_ne s c d _ h
@[simp] theorem core_modCfg_self (s : State) (c : CoreId) (f : CoreConfig → CoreConfig) : (s.modCfg c f).core c = { s.core c with cfg := f (s.core c).cfg } :=
  core_modCore_self s c _
theorem core_modCfg_ne (s : State) (c d : CoreId) (f : CoreConfig → CoreConfig) (h : d ≠ c) : (s.modCfg c f).core d = s.core d := core_modCore_ne s c d _ h
@[simp] theorem core_modMx_self (s : State) (c : CoreId) (e : EngId) (f : MatrixEngine → MatrixEngine) :
    (s.modMx c e f).core c = { s.core c with mx := (s.core c).mx.set e (f (s.core c).mx[e]) } := core_modCore_self s c _
theorem core_modMx_ne (s : State) (c d : CoreId) (e : EngId) (f : MatrixEngine → MatrixEngine) (h : d ≠ c) :
    (s.modMx c e f).core d = s.core d := core_modCore_ne s c d _ h
@[simp] theorem port_modPort_self (s : State) (n : PortId) (f : Port → Port) : (s.modPort n f).fab.ports[n] = f s.fab.ports[n] := by
  simp [State.modPort]
@[simp] theorem emit_out (s : State) (o : Output) : (s.emit o).out = s.out ++ [o] := rfl
@[simp] theorem sendMsg_net (s : State) (m : Msg) : (s.sendMsg m).net = s.net ++ [m] := rfl
@[simp] theorem laterLine_wbuf (s : State) (a : Nat) (l : Line) : (s.laterLine a l).wbuf = s.wbuf ++ [(a, l)] := rfl

/-! ## What a slot command can do (03 R71, R73) -/

/-- A slot instruction always answers a next state: unchanged where its core does not issue, its core halted for the first failing check, or its effect. -/
theorem issueSlot_cases (c : CoreId) (causes : List Cause) (effect : State → State) (s : State) :
    (s.issues c = false ∧ issueSlot c causes effect s = .next s) ∨
    (s.issues c = true ∧ ∃ x, firstCause causes = some x ∧ issueSlot c causes effect s = .next (s.haltAt c x)) ∨
    (s.issues c = true ∧ firstCause causes = none ∧ issueSlot c causes effect s = .next (effect s)) := by
  unfold issueSlot
  cases h : s.issues c <;> cases g : firstCause causes <;> simp

/-- Its effect, where its checks pass. -/
theorem issueSlot_clean {c : CoreId} {causes : List Cause} {effect : State → State} {s : State} (h : s.issues c = true)
    (g : firstCause causes = none) : issueSlot c causes effect s = .next (effect s) := by
  simp [issueSlot, h, g]

/-- A core that has halted halts no more (03 R71). -/
theorem haltCore_of_halted {s : State} {c : CoreId} (h : (s.core c).ctl.halted = true) (i : Bool) (slot reason : Nat) (a : BitVec 48) (d : Nat) (e x : Bool) :
    s.haltCore c i slot reason a d e x = s := by
  simp only [State.haltCore, State.haltNow, h, if_true, ite_self]
  split <;> rfl

/-- What the weir answers: refused at BUDGET 0, admitted with its unit of credit, or waiting behind what the activity already has waiting; it changes the weir alone (13 R324, R326). -/
theorem meter_cases (s : State) (n : Nat) (t : Transfer) :
    ((s.act n).budget = 0 ∧ s.meter n t = (.refused, s)) ∨
    ((s.act n).budget ≠ 0 ∧ s.queued n = false ∧ s.creditFor n 1 = 1 ∧ s.meter n t = (.admitted, s.spend n 1)) ∨
    ((s.act n).budget ≠ 0 ∧ (s.queued n = true ∨ s.creditFor n 1 ≠ 1) ∧
      s.meter n t = (.waits, { s with asz := { s.asz with waiting := s.asz.waiting ++ [(n, t)] } })) := by
  unfold State.meter State.refuses
  by_cases h : (s.act n).budget = 0
  · exact .inl ⟨h, by simp [h]⟩
  · cases q : s.queued n
    · by_cases k : s.creditFor n 1 = 1
      · exact .inr (.inl ⟨h, rfl, k, by simpa [k] using h⟩)
      · exact .inr (.inr ⟨h, .inr k, by simpa [k] using h⟩)
    · exact .inr (.inr ⟨h, .inl rfl, by simpa using h⟩)

/-- What an idle slot taken by no schedule changes. -/
@[simp] theorem takeSpare_softUsed (s : State) (res : Nat) : (s.takeSpare res).softUsed = res :: s.softUsed := rfl
@[simp] theorem takeSpare_mem (s : State) (res : Nat) : (s.takeSpare res).mem = s.mem := rfl
@[simp] theorem takeSpare_core (s : State) (res : Nat) (c : CoreId) : (s.takeSpare res).core c = s.core c := rfl
@[simp] theorem takeSpare_part (s : State) (res : Nat) (p : PartId) : (s.takeSpare res).part p = s.part p := rfl

end Sys2Proof.Machine
end

