-- ==== Sys2Proof/Laws/Step.lean ====
section
/-! SUPPORT. Step.lean: what an idle step is. -/

namespace Sys2Proof.Machine

/-- What an idle step does: the next rail of a cold boot, nothing, the next event due, or the end of the cycle. -/
theorem idleStep_cases (s : State) :
    (s.booting = true ∧ s.idleStep = .next s.bootStep) ∨
    (s.booting = false ∧ s.clk.running = false ∧ s.idleStep = .next s) ∨
    (∃ c, s.booting = false ∧ s.clk.running = true ∧ s.nextDue = some c ∧ s.idleStep = exec c s) ∨
    (s.booting = false ∧ s.clk.running = true ∧ s.nextDue = none ∧ s.idleStep = .next s.endCycle) := by
  unfold State.idleStep
  cases hb : s.booting with
  | true => exact .inl ⟨rfl, rfl⟩
  | false =>
    cases hr : s.clk.running with
    | false => exact .inr (.inl ⟨rfl, rfl, rfl⟩)
    | true =>
      cases hn : s.nextDue with
      | none => exact .inr (.inr (.inr ⟨rfl, rfl, rfl, rfl⟩))
      | some c => exact .inr (.inr (.inl ⟨c, rfl, rfl, rfl, rfl⟩))

end Sys2Proof.Machine
end

