-- ==== Sys2Proof/Tests/Slice0.lean ====
section
/-! SUPPORT. Slice0.lean: smoke tests of WellFormed, numbers the spec works out, and for every statement with hypotheses a state that meets them. -/

open Sys2Proof Sys2Proof.Machine

namespace Sys2Proof.Tests

set_option Elab.async false

/-- A state to start from: partition 0 holds cores 0 and 1 and runs; the rest is as after reset. -/
def one : State :=
  { State.reset with
    parts := State.reset.parts.set 0 { Part.reset with
      pr := { PartsRecord.none with valid := true, w := 2, h := 1, b := 1 }, pstate := .running } }

/-! ## Smoke tests of WellFormed: each check refuses a term -/

theorem test_wf_errs : (Instr.bundleIssue 0 [(64, .clean), (0, .clean)]).wf = false ∧ (Instr.bundleIssue 0 [(0, .corrected 9)]).wf = false ∧
    (Instr.bundleIssue 0 [(0, .corrected 8), (64, .uncorrectable 1 7)]).wf = true := by decide
theorem test_wf_ecc : (Instr.lineAccess 0 0 (.corrected 0)).wf = false ∧ (Instr.lineAccess 0 0 .clean).wf = true := by decide
theorem test_wf_image : (Instr.assizeApply { len := 64, bytes := [(64, 1)] }).wf = false ∧
    (Instr.assizeApply { len := 64, bytes := [(3, 0)] }).wf = false ∧ (Instr.assizeApply { len := 64, bytes := [(3, 1)] }).wf = true := by decide
theorem test_wf_calibration : (Instr.calWrite true { off := 0, bytes := List.replicate 255 0 }).wf = false ∧
    (Instr.calWrite true { off := 256, bytes := List.replicate 256 0 }).wf = true := by decide +kernel
theorem test_wf_flit : (Instr.flitReceive 0 (List.replicate 255 0) true).wf = false ∧ (Instr.flitReceive 0 (List.replicate 256 0) true).wf = true := by
  decide +kernel
theorem test_wf_access : (Instr.registerWrite .host ⟨0, 0x30004⟩ 8 0).wf = false ∧ (Instr.registerWrite .host ⟨0, 0x30004⟩ 2 0).wf = false ∧
    (Instr.registerWrite .host ⟨0, 0x30008⟩ 8 0).wf = true ∧ (Instr.tbCountLoRead 2).wf = false := by decide
theorem test_wf_window : (Instr.bar2Access 0 (.read 0) []).wf = false ∧ (Instr.bar2Access 0x7FFFFFFF (.read 2) []).wf = false ∧
    (Instr.bar2Access 0 (.read 4096) []).wf = true := by decide
theorem test_wf_functions : (Instr.vfFlr 0).wf = false ∧ (Instr.vfFlr 65).wf = false ∧ (Instr.vfFlr 64).wf = true ∧
    (Instr.doorbell 0 65 0 0).wf = false := by decide

/-! ## Numbers that the spec works out -/

/-- 02, example after R31: core 9 to core 30 crosses 7 hops. -/
theorem test_hops : hops 9 30 = 7 := by decide
/-- 04, example after R101: lines 0 to 15 of T3 lie in banks 6 to 13 and 38 to 45. -/
theorem test_banks : (List.range 16).map (bankOf 3) = [6, 38, 7, 39, 8, 40, 9, 41, 10, 42, 11, 43, 12, 44, 13, 45] := by decide
/-- 05, example after R121: the group partial is exact; the entry is 0x37800000. -/
theorem test_group_partial : (match mmaForm 0x17 with
    | some ⟨_, _, .el a, .el b⟩ => some (entryAdd 0 (groupValue a b 127 127 false
        ((Partial.zero.addAll a b [(0x78, 0x60), (0x01, 0x3C), (0xF8, 0x60)]).value (partialUnit a b))))
    | _ => none) = some 0x37800000 := by decide +kernel
/-- 06, example before R154: A scale 130, B scale 120, E4M3 by FP4 gives 0x3F100400; a B scale of 0xFF gives NaN. -/
theorem test_scaled_group : (match mmaForm 0x18 with
    | some ⟨_, _, .el a, .el b⟩ =>
      let p := (Partial.zero.addAll a b [(0x3C, 0x7), (0x01, 0x1)]).value (partialUnit a b)
      some (entryAdd 0 (groupValue a b 130 120 false p), entryAdd 0x3F100400 (groupValue a b 127 0xFF false p))
    | _ => none) = some (0x3F100400, 0x7FC00000) := by decide +kernel
/-- 06, example after R160: the first two draws of lane 0 of seed 0x61C88648. -/
theorem test_draws : srStart 0x61C88648 0 = 1 ∧ srDraw 0x61C88648 0 = 0x00042021 ∧ srDraw 0x61C88648 512 = 0x04080601 := by decide
/-- 07, example after R182: the tree sum of 2^24, 1, 1, 1 is 16,777,218, inexact. -/
theorem test_tree_sum : ((reduceGroups 0 0 0 ([0x4B800000, 0x3F800000, 0x3F800000, 0x3F800000] ++ List.replicate 508 0)).headD (0, 0)).1 = 0x4B800001 := by
  decide +kernel
/-- 08, example after R217: LQ from core 8 to stack 0 is 11. -/
theorem test_lq : lq 8 0 = 11 := by decide
/-- 10, example after R252: the depths of cores 0, 1, 8 and 9 are 4, 3, 5 and 4. -/
theorem test_depths : [0, 1, 8, 9].map depth = [4, 3, 5, 4] := by decide
/-- 14, example after R334: 1,650 W of 2,000 W with z = 0.30 allows six steps. -/
theorem test_step_count : stepCount (1650, 1) (2000, 1) 3 10 = 6 := by decide +kernel

/-! ## The queue, reset and what every step keeps -/

theorem witness_empty_queue : State.reset.pending = [] ∧ State.reset.booting = false ∧ State.reset.clk.running = true ∧ State.reset.nextDue.isNone = true ∧
    one.pending = [] ∧ one.booting = false ∧ one.clk.running = true ∧ one.nextDue.isSome = true ∧
    (let s := { State.reset with clk := { State.reset.clk with running := false } }; s.booting = false ∧ s.clk.running = false) ∧
    { State.reset with pow := { State.reset.pow with pwrGood := false } }.booting = true := by decide +kernel
theorem witness_invariants : memWf State.reset.mem = true ∧ State.reset.ev.store.length ≤ 1024 := by decide
theorem witness_step : ∃ t, step { State.reset with pending := [.nop 0 0] } = .next t ∧ t.pending = [] := ⟨_, rfl, rfl⟩

/-- Partition 0 on cores 0 and 1, with core 0 changed. -/
def withCore (f : Core → Core) : State := one.modCore 0 f
/-- Its partition changed. -/
def withPart (f : Part → Part) : State := one.modPart 0 f

/-! ## The control slot -/

/-- Core 0 with an open level on C1. -/
def inLevel : State := withCore (fun k => { k with ctl := { k.ctl with
  pc := 0x100000, c := k.ctl.c.set 1 3 |>.set 2 1, reps := [{ ctr := 1, first := 0x100000, last := 0x100040 }] } })

theorem witness_counters : inLevel.issues 0 = true ∧ ∀ l ∈ (inLevel.core 0).ctl.reps, l.ctr ≠ 7 := by decide +kernel
theorem witness_branches : one.issues 0 = true ∧ (one.core 0).ctl.redirect = none ∧ (one.core 0).ctl.reps = [] ∧
    (one.core 0).ctl.p[(15 : Fin 16)].toNat % 64 = 0 := by decide +kernel
theorem witness_rep : inLevel.issues 0 = true ∧ (inLevel.core 0).ctl.redirect = none ∧ (inLevel.core 0).ctl.c[(2 : Fin 8)] ≠ 0 ∧
    (inLevel.core 0).ctl.c[(3 : Fin 8)] = 0 ∧ (inLevel.core 0).ctl.reps.length < 4 ∧
    ∀ r ∈ (inLevel.core 0).ctl.reps, (inLevel.core 0).ctl.pc.toNat + 64 * 1 ≤ r.last.toNat ∧ r.last ≠ (inLevel.core 0).ctl.pc := by
  decide +kernel
theorem witness_repeat_logic : ∃ u : ControlUnit, ∃ l, u.redirect = none ∧ u.reps = [l] ∧ u.pc = l.last ∧ u.c[l.ctr] = 1 :=
  ⟨{ (inLevel.core 0).ctl with pc := 0x100040, c := .replicate 8 1 }, _, rfl, rfl, rfl, by decide +kernel⟩
theorem witness_nested_repeat : ∃ u : ControlUnit, ∃ l m, u.redirect = none ∧ u.reps = [l, m] ∧ u.pc = l.last ∧ m.last = l.last ∧ m.ctr ≠ l.ctr ∧
    u.c[l.ctr] = 1 ∧ u.c[m.ctr] ≠ 1 :=
  ⟨{ (inLevel.core 0).ctl with pc := 0x100040, c := (Vector.replicate 8 1).set 2 5, reps := [{ ctr := 1, first := 0x100000, last := 0x100040 }, { ctr := 2, first := 0xFFFC0, last := 0x100040 }] },
    _, _, rfl, rfl, rfl, rfl, by decide, by decide +kernel, by decide +kernel⟩
theorem witness_fin : one.issues 0 = true ∧ one.partOf 0 = some 0 ∧ ∀ n : Fin 48, (one.core 0).syn.s[n] = 0 := by decide +kernel

/-- Core 0 finished in the present cycle. -/
def finished : State := withCore (fun k => { k with ctl := { k.ctl with finished := true, finCyc := (one.part 0).now } })
theorem witness_close : finished.partOf 0 = some 0 ∧ (finished.core 0).ctl.finished = true ∧ (finished.core 0).ctl.halted = false ∧
    (finished.core 0).ctl.finCyc = (finished.part 0).now := by decide +kernel

/-! ## The sync/message slot -/

/-- Core 0 with counter 47 at 3 of 255, barrier 0 partition-wide and completed. -/
def counting : State := withCore (fun k => { k with syn := { k.syn with
  s := k.syn.s.set 47 3, cap := .replicate 48 255, scope := 1, bar := k.syn.bar.set 0 .completed } })
/-- The same for core 1, its counter full. -/
def countingOne : State := one.modSyn 1 (fun y => { y with s := y.s.set 47 0xFE, cap := .replicate 48 255 })

theorem witness_counter_halts : (counting.core 0).syn.s[(47 : Fin 48)].toNat < (4#8).toNat ∧
    (countingOne.core 1).syn.cap[(47 : Fin 48)].toNat < (countingOne.core 1).syn.s[(47 : Fin 48)].toNat + (4#8).toNat := by decide +kernel
/-- Core 0 at CFL's wait on the completed id 0; with id 0 spanning, core 1 not yet arrived; alone in its partition. -/
def atConfluence : State := counting.modCtl 0 (fun u => { u with waiting := true })
def spanning : State := counting.modSyn 0 (fun y => { y with scope := 2, bar := .replicate 16 .idle })
def spanningAlone : State := spanning.modPart 0 (fun q => { q with pr := { q.pr with w := 1 } })
theorem witness_confluence_wait : atConfluence.issues 0 = true ∧ (atConfluence.core 0).syn.scopeOf 0 = 1 ∧ (atConfluence.core 0).ctl.waiting = true ∧
    (atConfluence.core 0).syn.bar[(0 : Fin 16)] = .completed ∧ (counting.core 0).ctl.waiting = false ∧ (counting.core 0).syn.bar[(0 : Fin 16)] ≠ .arrived ∧
    one.issues 0 = true ∧ (one.core 0).syn.nonZero = 0 ∧
    (spanning.core 0).syn.scopeOf 0 = 2 ∧ (spanning.core 0).syn.bar[(0 : Fin 16)] ≠ .arrived ∧ (spanning.core 1).syn.bar[(0 : Fin 16)] ≠ .arrived ∧
    (spanning.core 1).ctl.finished = false ∧ spanning.coresOf 0 ≠ [0] ∧ spanningAlone.coresOf 0 = [0] ∧ spanningAlone.partOf 0 = some 0 ∧
    spanningAlone.issues 0 = true ∧ (spanningAlone.part 0).roots[(0 : Fin 16)].coming = [] := by decide +kernel
theorem witness_release : counting.issues 0 = true ∧ counting.partOf 0 = some 0 ∧ (3#8).toNat ≤ (counting.core 0).syn.s[(47 : Fin 48)].toNat ∧
    counting.partOf 1 = some 0 := by decide +kernel
theorem witness_signal : countingOne.issues 1 = true ∧ countingOne.partOf 1 = some 0 ∧
    (countingOne.core 1).syn.s[(47 : Fin 48)].toNat + 1 ≤ (countingOne.core 1).syn.cap[(47 : Fin 48)].toNat := by decide +kernel
theorem witness_waits : counting.issues 0 = true ∧ counting.inReplay 0 = false ∧ (∀ p, counting.recording p = false) ∧
    (4#8).toNat ≤ (counting.core 0).syn.cap[(47 : Fin 48)].toNat ∧ (counting.core 0).syn.s[(47 : Fin 48)].toNat < (4#8).toNat ∧
    (counting.core 0).ctl.waiting = false ∧ (counting.core 0).ctl.deadline = none ∧ (counting.core 0).syn.scopeOf 0 = 1 ∧
    (counting.core 0).syn.bar[(0 : Fin 16)] = .completed := by decide +kernel
theorem witness_arrival : counting.issues 0 = true ∧ counting.partOf 0 = some 0 ∧ (counting.core 0).syn.scopeOf 0 = 1 ∧
    (counting.core 0).syn.bar[(0 : Fin 16)] ≠ .arrived := by decide +kernel

/-- A message with header fields KIND and destination endpoint. -/
def msg (kind dep : Nat) : Msg := { hdr := mkHdr kind false 0 0 dep 0 0 0 0, payload := 0, gen := 0 }

/-- Cores 0 and 1 with message queues, core 0 with a NAK to take, P0 naming core 1, and staging entry 0 written. -/
def talking : State :=
  ((withCore (fun k => { k with
    ctl := { k.ctl with p := k.ctl.p.set 0 (BitVec.ofNat 48 (2 ^ 20)) }
    mu := { k.mu with rpDepth := 32, rqDepth := 32, peers := 1, rp := [msg 3 0], staging := k.mu.staging.set 0 (some (msg 1 1)) } })).modMu 1
      (fun u => { u with rpDepth := 32, rqDepth := 32, peers := 1 }))

theorem witness_messages : talking.issues 0 = true ∧ talking.partOf 0 = some 0 ∧ talking.inReplay 0 = false ∧
    (∀ p, talking.recording p = false) ∧ firstCause (talking.synCauses 0 (0x22#8 ++ 0#40)) = none ∧
    firstCause (talking.synCauses 0 (0x20#8 ++ 0#40)) = none ∧ talking.sendCase 0 0 = .accepted ∧
    firstCause (talking.synCauses 0 (0x21#8 ++ 0#40)) = none ∧ (talking.core 0).mu.rp = [msg 3 0] := by decide +kernel
theorem witness_transaction : talking.issues 0 = true ∧ Clean talking 0 (talking.synCauses 0 (0x23#8 ++ 0x1000000#40)) ∧
    (talking.txAcquire 0 (talking.txParts 0 1)).txCase 0 0x1000000 = .accepted := by unfold Clean; decide +kernel

/-- A signal of 1 due at counter 47 of core 0. -/
def signalled : State := counting.modPart 0 (fun q => { q with
  signals := [{ target := 0, n := 47, amt := 252, at_ := 0, sender := 1, bundle := 0 }] })
/-- Core 0 waiting for counter 47, its deadline past. -/
def overdue : State := counting.modCtl 0 (fun u => { u with
  waiting := true, deadline := some 0, wait := 0x03#8 ++ 0#2 ++ 47#6 ++ 4#8 ++ 0#2 ++ 0#2 ++ 1#20 })

theorem witness_signal_arrival : signalled.liveOf 0 = some 0 ∧ ((signalled.part 0).nextSignal 0).isSome = true ∧
    (signalled.part 0).used.contains (resLost 0 47) = false ∧
    (signalled.core 0).syn.count 47 + 252 ≤ (signalled.core 0).sigCap 47 := by decide +kernel

/-- The barrier's states of partition 0: an arrival at the root, a full root, a completion at core 0, a ready spanning completion. -/
def barriers : State := (one.modSyn 0 (fun y => { y with bar := y.bar.set 1 .arrived })).modPart 0 (fun q => { q with
  cycDone := true, cyc := 100
  roots := ((q.roots.set 0 { q.roots[0] with coming := [(0, 99)] }).set 2 { q.roots[2] with full := some 98 }).set 1 { q.roots[1] with going := [(0, 99)] } })
/-- A ready spanning completion. -/
def spanned : State := withPart (fun q => { q with
  roots := q.roots.set 15 { q.roots[15] with spanWaiting := true, spanReady := true } })

theorem witness_barriers : barriers.liveOf 0 = some 0 ∧
    ((barriers.part 0).roots[(0 : Fin 16)].coming.find? (fun e => e.1 == 0 && e.2 ≤ (barriers.part 0).now)).isSome = true ∧
    (barriers.core 0).syn.scopeOf 0 ≠ 2 ∧ (barriers.part 0).roots[(2 : Fin 16)].full = some 98 ∧ (barriers.part 0).cycDone = true ∧
    98 + 1 ≤ (barriers.part 0).now ∧ (barriers.part 0).armed = none ∧
    ((barriers.part 0).roots[(1 : Fin 16)].going.find? (fun e => e.1 == 0 && e.2 ≤ (barriers.part 0).now)).isSome = true ∧
    (barriers.part 0).committed = none ∧ (barriers.core 0).syn.bar[(1 : Fin 16)] = .arrived := by decide +kernel
theorem witness_span : (spanned.part 0).live = true ∧ (spanned.part 0).issuing = true ∧ (spanned.part 0).roots[(15 : Fin 16)].spanWaiting = true ∧
    (spanned.part 0).roots[(15 : Fin 16)].spanReady = true ∧ (spanned.part 0).roots[(15 : Fin 16)].spanDue ≤ (spanned.part 0).icount.toNat ∧
    (spanned.part 0).armed = none := by decide +kernel
/-- Core 0 at a wait of an opcode, 1 ns long, its deadline past; its messages need entries that no core has. -/
def timing (opc : BitVec 8) (w : BitVec 40) : State := (talking.modSyn 0 (fun y => { y with scope := 1, bar := y.bar.set 0 .arrived, cap := .replicate 48 255 })).modCtl 0
  (fun u => { u with waiting := true, deadline := some 0, wait := opc ++ (w ||| 1#40) })
/-- The same without an answer to take, the receiver's queue without room. -/
def starved (opc : BitVec 8) (w : BitVec 40) : State := ((timing opc w).modMu 0 (fun u => { u with rp := [] })).modMu 1 (fun u => { u with rqDepth := 0 })
theorem witness_timeouts : Clean (timing 0x03 0x4000000) 0 ((timing 0x03 0x4000000).synCauses 0 ((timing 0x03 0x4000000).core 0).ctl.wait) ∧
    ((timing 0x03 0x4000000).core 0).syn.count 0 < 4 ∧ fld (0x4000001#40) 31 24 = 4 ∧ fld (0x4000001#40) 19 0 ≠ 0 ∧
     (0 : BitVec 64) ≤ (timing 0x03 0x4000000).coreTb 0 ∧
    Clean (timing 0x08 0x2000000000) 0 ((timing 0x08 0x2000000000).synCauses 0 ((timing 0x08 0x2000000000).core 0).ctl.wait) ∧ bit (0x2000000001#40) 37 = true ∧
    Clean (timing 0x09 0) 0 ((timing 0x09 0).synCauses 0 ((timing 0x09 0).core 0).ctl.wait) ∧ ((timing 0x09 0).core 0).syn.bar[(0 : Fin 16)] = .arrived ∧
    Clean (starved 0x20 0) 0 ((starved 0x20 0).synCauses 0 ((starved 0x20 0).core 0).ctl.wait) ∧ (starved 0x20 0).destClosed ((starved 0x20 0).sendOf 0 1#40) = false ∧
    (starved 0x20 0).destFree ((starved 0x20 0).sendOf 0 1#40) = false ∧
    Clean (starved 0x21 0) 0 ((starved 0x21 0).synCauses 0 ((starved 0x21 0).core 0).ctl.wait) ∧ ((starved 0x21 0).core 0).mu.rp = [] ∧
    Clean (starved 0x23 0x1000000) 0 ((starved 0x23 0x1000000).synCauses 0 ((starved 0x23 0x1000000).core 0).ctl.wait) ∧
    ((starved 0x23 0x1000000).txParts 0 1).all (fun x => !(starved 0x23 0x1000000).destClosed x.2) = true ∧
    ((starved 0x23 0x1000000).txParts 0 1).any (fun x => !((starved 0x23 0x1000000).core 0).mu.txHeld.contains x.1 && !(starved 0x23 0x1000000).destFree x.2) = true ∧
    (starved 0x23 0x1000000).inReplay 0 = false ∧ (starved 0x23 0x1000000).partOf 0 = some 0 := by unfold Clean; decide +kernel
theorem witness_timeout : (overdue.core 0).ctl.waiting = true ∧ opc48 (overdue.core 0).ctl.wait = 0x03 ∧
    overdue.synEval 0 (overdue.core 0).ctl.wait = .done (some true) ∧ (∀ p, overdue.recording p = false) ∧ overdue.issues 0 = true ∧
    firstCause (overdue.synCauses 0 (overdue.core 0).ctl.wait) = none := by decide +kernel

/-! ## Streams -/

/-- Cores 0 and 1 with their whole slices as region 0. -/
def streaming : State :=
  let all := fun (g : CoreConfig) => { g with region := g.region.set 0 (BitVec.ofNat 64 (2 ^ 63 + 448)) }
  { (one.modCfg 0 all).modCfg 1 all with sec := { one.sec with phase := .ready, ready := true } }
/-- A COPY descriptor of one row of len lines, slice line 1 of core 0 to a destination. -/
def copyDesc (len src dst : Nat) : BitVec 256 :=
  BitVec.ofNat 256 (len + 2 * 2 ^ 60 + src * 2 ^ 64 + 2 ^ 112 + dst * 2 ^ 128 + 2 ^ 176)
/-- Line 0 of tile 3 of engine 0 of core 0. -/
def placedTile : Nat := tileAlias 0 0 3 0
/-- A block of that COPY, issued in the present cycle. -/
def copyBlock (xf len src dst : Nat) : Block :=
  { id := 0, kind := .copy xf, chain := none, cid := 0, seed := 0, desc := copyDesc len src dst, xpar := 0, descAddr := 0, bundle := 0,
    issued := 0, count := 0, due := 100, lag := false, access := 0, srcs := [], staged := [], arrived := [], released := [], outs := [],
    written := 0, indices := [], turn := 0, lastTurn := 0, forced := none, elem0 := 0, failed := none }
/-- Core 0 with a block at a cycle since release. -/
def blockAt (b : Block) (cyc : Nat) : State :=
  (streaming.modStr 0 (fun u => { u with blocks := [b] })).modPart 0 (fun q => { q with cyc := BitVec.ofNat 64 cyc })
/-- Core 0 with its chain slot 0 under way, the list of one descriptor at line 0 of its slice. -/
def aChain : Chain :=
  { cid := 4, base := 0, n := 1, got := [], reads := [(0, 0, false)], nextDesc := 1, planned := 9, seed := 0, elems := 0, bundle := 0,
    late := false, stuck := false }
/-- The same when its descriptor has come. -/
def gotChain : Chain := { aChain with got := [(1, copyDesc 2 64 4096 ||| BitVec.ofNat 256 (50 * 2 ^ 24))], reads := [], planned := 8 }
/-- A HEAD line without seed or budget. -/
def headLine : Line := BitVec.ofNat 512 (2 ^ 60)
/-- Core 0 with a chain in slot 0 at an issue count. -/
def chaining (ch : Chain) (icount : Nat) : State :=
  ((streaming.putLine 0 headLine).modStr 0 (fun u => { u with chains := u.chains.set 0 (some ch) })).modPart 0 (fun q => { q with
    icount := BitVec.ofNat 64 icount, cyc := BitVec.ofNat 64 icount })

/-- The same with core 0 in legacy mode, where a tile move claims no banks. -/
def legacyStreaming : State := streaming.modCfg 0 (fun g => { g with legacy := true })
theorem witness_stream_slot : streaming.partOf 0 = some 0 ∧ streaming.issues 0 = true ∧
    firstCause (streaming.strCauses 0 (0x01#8 ++ BitVec.ofNat 88 (2 ^ 44))) = none ∧
    (streaming.core 0).str.chains[(0 : Fin 16)] = none ∧ (streaming.core 0).str.latches[(0 : Fin 16)] = none ∧
    firstCause (legacyStreaming.strCauses 0 (0x02#8 ++ BitVec.ofNat 88 (600 * 2 ^ 14 + 2 * 2 ^ 30))) = none ∧
    (legacyStreaming.core 0).str.room (legacyStreaming.slotBlock 0 0 (BitVec.ofNat 88 (600 * 2 ^ 14 + 2 * 2 ^ 30))) 0 = true ∧
    legacyStreaming.partOf 0 = some 0 ∧ legacyStreaming.issues 0 = true ∧
    firstCause (streaming.strCauses 0 (0x03#8 ++ 1#88)) = none := by decide +kernel
theorem witness_stream_waits : firstCause ((chaining gotChain 3).strCauses 0 (0x01#8 ++ BitVec.ofNat 88 (2 ^ 44 + 2 ^ 60))) = none ∧
    (chaining gotChain 3).partOf 0 = some 0 ∧ (chaining gotChain 3).issues 0 = true := by decide +kernel

/-- A full scoreboard on core 0. -/
def boarded (s : State) : State := s.modStr 0 (fun u => { u with board := List.replicate 64 { blk := 99, lo := 0x100000, hi := 0x100001, due := 0, source := false } })
theorem witness_tile_move_waits : firstCause ((boarded streaming).strCauses 0 (0x10#8 ++ BitVec.ofNat 88 (600 * 2 ^ 14 + 64 * 2 ^ 30))) = none ∧
    (boarded streaming).issues 0 = true ∧
    ((boarded streaming).core 0).str.room ((boarded streaming).slotBlock 0 1 (BitVec.ofNat 88 (600 * 2 ^ 14 + 64 * 2 ^ 30))) 0 = false := by
  decide +kernel
theorem witness_chain_busy : (chaining gotChain 3).partOf 0 = some 0 ∧ ((chaining gotChain 3).core 0).str.chains[(0 : Fin 16)] ≠ none := by decide +kernel
/-- Its bundles issued, its cycle counted. -/
def cycled (s : State) : State := s.modPart 0 (fun q => { q with cycDone := true, issued := true, icount := q.icount + 1, cyc := q.cyc + 1 })
theorem witness_chains : (streaming.part 0).live = true ∧ (streaming.core 0).ctl.halted = false ∧
    ((chaining aChain 0).core 0).str.chains[(0 : Fin 16)] = some aChain ∧ aChain.reads = [(0, ((chaining aChain 0).part 0).count, false)] ∧
    ((chaining aChain 0).part 0).issuing = true ∧ ((chaining aChain 0).part 0).cycDone = false ∧ (chaining aChain 0).poisoned 0 = false ∧
    headBad (((chaining aChain 0).line 0).extractLsb' 0 256) = [] := by decide +kernel
/-- A start waiting in the latch of slot 0. -/
def latched : State := streaming.modStr 0 (fun u => { u with latches := u.latches.set 0 (some { base := 0, n := 1, bundle := 0 }) })
theorem witness_chain_reads : (latched.core 0).str.chains[(0 : Fin 16)] = none ∧ (latched.core 0).str.latches[(0 : Fin 16)] = some ⟨0, 1, 0⟩ ∧
    (let s := chaining { aChain with n := 3, reads := [(0, 5, false), (1, 0, true)] } 0
     s.readReady 0 0 { aChain with n := 3, reads := [(0, 5, false), (1, 0, true)] } (0, 5, false) = false ∧
     0 ≤ (s.part 0).now ∧ s.idle 0 (resRead 0 (bankGroup 64)) = true ∧ s.poisoned 64 = false ∧ (s.part 0).cycDone = false) := by decide +kernel
/-- A waiting tile move on core 0, after its cycle's bundles. -/
def waitingMove : State := cycled (streaming.modStr 0 (fun u => { u with waiting := [{ copyBlock 0 2 64 4096 with lag := true }] }))
theorem witness_lag_issue : ((waitingMove.core 0).str.ready 0).isSome = true ∧ (waitingMove.part 0).cycDone = true ∧
    (let s := cycled (chaining { gotChain with stuck := true } 9)
     (s.core 0).str.ready 0 = none ∧ (s.core 0).str.lagsAt 0 (s.part 0).count = true ∧
     ∃ d, gotChain.next = some (d, none) ∧
      let b := s.chainBlock 0 0 { gotChain with stuck := true } d none true
      (s.core 0).str.room b 0 = true ∧ (s.refusal 0 { gotChain with stuck := true } b none).isNone = true ∧ b.kindBad 0 = none) ∧
    (let s := boarded (cycled (chaining gotChain 9)); ∃ d, gotChain.next = some (d, none) ∧
      (s.core 0).str.room (s.chainBlock 0 0 gotChain d none false) 0 = false) :=
  ⟨by decide +kernel, by decide +kernel, ⟨by decide +kernel, by decide +kernel, _, rfl, by decide +kernel, by decide +kernel, by decide +kernel⟩,
    ⟨_, rfl, by decide +kernel⟩⟩
theorem witness_block_issue : (∃ d, gotChain.next = some (d, none) ∧ gotChain.planned + dGap d = ((cycled (chaining gotChain 9)).part 0).count ∧
      ((cycled (chaining gotChain 9)).core 0).str.room ((cycled (chaining gotChain 9)).chainBlock 0 0 gotChain d none false) 0 = true ∧
      ((cycled (chaining gotChain 9)).refusal 0 gotChain ((cycled (chaining gotChain 9)).chainBlock 0 0 gotChain d none false) none).isNone = true ∧
      ((cycled (chaining gotChain 9)).chainBlock 0 0 gotChain d none false).kindBad 0 = none ∧
      (let s := cycled (chaining gotChain 9)
       let b := s.chainBlock 0 0 gotChain d none false
       (s.claim 0 b.planner (s.allClaims b (s.planOf 0))).1 = none ∧
         ((s.claim 0 b.planner (s.allClaims b (s.planOf 0))).2.claim 0 { b.planner with runs := false } []).1 = none) ∧
      gotChain.plans gotChain.nextDesc = none) ∧
    ((cycled (chaining gotChain 9)).part 0).cycDone = true ∧ ((cycled (chaining gotChain 9)).part 0).issued = true :=
  ⟨⟨_, rfl, by decide +kernel, by decide +kernel, by decide +kernel, by decide +kernel, by decide +kernel, by decide +kernel⟩,
    by decide +kernel, by decide +kernel⟩

/-- A source line of block 0 that has its data in a cycle. -/
def line (idx due : Nat) : LineInFlight := { idx := idx, addr := 64, due := due, data := some 0x1234, late := false, unsent := false }
theorem witness_source_lines : (blockAt (copyBlock 0 2 64 4096) 30).liveOf 0 = some 0 ∧
    (blockAt (copyBlock 0 2 64 4096) 30).blockOf 0 0 = some (copyBlock 0 2 64 4096) ∧ (copyBlock 0 2 64 4096).indexed = false ∧
    (copyBlock 0 2 64 4096).remoteDue 30 = none ∧ 0 < (copyBlock 0 2 64 4096).srcCount ∧
    0 + (copyBlock 0 2 64 4096).accessOf (streaming.planOf 0) 0 ≤ ((blockAt (copyBlock 0 2 64 4096) 30).part 0).now ∧
    (copyBlock 0 2 64 4096).srcAt 0 0 = some 64 ∧ placeOf 64 = .slice 0 ∧ streaming.poisoned 64 = false ∧
    placeOf (tileAlias 0 0 3 0) = .tile 0 0 3 0 ∧ placeOf (sliceBase 1) = .slice 1 ∧ placeOf hbmBase = .hbm ∧
    ((blockAt (copyBlock 0 2 64 4096) 30).core 0).str.excess = false ∧
    { copyBlock 4 1 64 4096 with xpar := BitVec.ofNat 256 (2 ^ 56 + 2 ^ 52 + 2 ^ 32) }.srcAt 0 0 = none ∧
    { copyBlock 4 1 64 4096 with xpar := BitVec.ofNat 256 (2 ^ 56 + 2 ^ 52 + 2 ^ 32) }.srcCount = 1 ∧ (copyBlock 0 2 (placedTile) 4096).srcAt 0 0 = some placedTile ∧
    (copyBlock 0 2 (sliceBase 1) 4096).srcAt 0 0 = some (sliceBase 1) ∧ (copyBlock 0 2 hbmBase 4096).srcAt 0 0 = some hbmBase ∧
    (let b : Block := { copyBlock 0 2 (sliceBase 1) 4096 with access := 1, srcs := [{ idx := 0, addr := sliceBase 1, due := 30, data := none, late := false, unsent := false }] }
     b.remoteDue 30 = some { idx := 0, addr := sliceBase 1, due := 30, data := none, late := false, unsent := false }) := by decide +kernel
/-- A lagging block of core 0, with lines under way. -/
def lagging (src : Nat) (l : List LineInFlight) : State := blockAt { copyBlock 0 2 src 4096 with lag := true, access := l.length, srcs := l } 30
/-- Its line 0 at an address, waiting or under way. -/
def lateLine (a : Nat) (unsent : Bool) : LineInFlight := { idx := 0, addr := a, due := 30, data := none, late := true, unsent := unsent }
theorem witness_late_lines : ((lagging 64 []).waitingLine 0 0 { copyBlock 0 2 64 4096 with lag := true }) = none ∧
    (lagging hbmBase []).routeFree 0 (routeStack 0 ((lagging hbmBase []).stackAt hbmBase)) = true ∧
    [64, sliceBase 1, placedTile].all (fun a => (lagging a [lateLine a true]).waitingLine 0 0
      { copyBlock 0 2 a 4096 with lag := true, access := 1, srcs := [lateLine a true] } == some (lateLine a true)) = true ∧
    (lagging (sliceBase 1) [lateLine (sliceBase 1) false]).slotIdle 0 (sliceBase 1) false = true ∧
    isHbm (sliceBase 1) = false := by decide +kernel
/-- Core 0 with 4,096 requests of a block under way, and one that waits. -/
def stagingFull (n : Nat) (unsent : Bool) : State :=
  let l : List LineInFlight := List.replicate n { idx := 0, addr := hbmBase, due := 30, data := none, late := false, unsent := unsent }
  blockAt { copyBlock 0 5000 hbmBase 4096 with access := n, srcs := l } 5000
theorem witness_staging_full : 4096 ≤ ((stagingFull 4096 false).core 0).str.stagingUsed := by
  have h : ∀ n, ((stagingFull n false).core 0).str.stagingUsed = ((List.replicate n
    ({ idx := 0, addr := hbmBase, due := 30, data := none, late := false, unsent := false } : LineInFlight)).filter (fun x => isHbm x.addr && !x.unsent)).length + 0 :=
    fun _ => rfl
  rw [h, List.filter_replicate]; simp only [show (isHbm hbmBase && !false) = true by decide, if_true, List.length_replicate]; omega
theorem witness_staging : (firstRequest (((stagingFull 1 true).core 0).str.waits.filter (fun y => !y.1.lag))).isSome = true ∧ ((stagingFull 1 true).core 0).str.stagingUsed < 4096 ∧
    (stagingFull 1 true).routeFree 0 (routeStack 0 ((stagingFull 1 true).stackAt hbmBase)) = true := by decide +kernel
theorem witness_staged_lines : ({ copyBlock 0 2 64 4096 with access := 1, srcs := [line 0 30] } : Block).arriving 30 = some (line 0 30) ∧
    (line 0 30).data = some 0x1234 ∧
    (let b : Block := { copyBlock 5 17 64 4096 with access := 17, staged := (List.range 17).map (fun i => (i, 0)), arrived := (List.range 17).map (fun i => (i, i)) }
     b.nextRelease 30 = some 0 ∧ b.lastArrival 0 + b.lagOf 0 ≤ 30 ∧ b.kind = .copy 5) := by decide +kernel
/-- A destination line of block 0 due in cycle 30. -/
def destination (addr : Nat) (late : Bool) (stage : Nat) : LineOut := { idx := 1, addr := addr, due := 30, data := 0x77, late := late, stage := stage }
theorem witness_destination_lines : (blockAt { copyBlock 0 2 64 4096 with outs := [destination 4160 true 0] } 30).liveOf 0 = some 0 ∧
    (blockAt { copyBlock 0 2 64 4096 with outs := [destination 4160 true 0] } 30).slotIdle 0 4160 true = true ∧
    [4160, placedTile, sliceBase 1, hbmBase].all (fun a => (blockAt { copyBlock 0 2 64 4096 with outs := [destination a true 0] } 30).lateFree 0 0 a true &&
      !({ copyBlock 0 2 64 4096 with outs := [destination a true 0] } : Block).superseded 0 (destination a true 0)) = true ∧
    ({ copyBlock 0 1 64 4096 with desc := copyDesc 1 64 4096 + 2 ^ 176, released := [0, 1, 2], outs := [destination 4096 true 0] } : Block).superseded 0
      (destination 4096 true 0) = true ∧
    placeOf 4160 = .slice 0 ∧ ({ copyBlock 0 2 64 4096 with written := 1, outs := [] } : Block).finished = false ∧
    ({ copyBlock 0 2 64 4096 with written := 2, outs := [] } : Block).finished = true := by decide +kernel

/-! ## Gather and scatter, HBM, scrubbing -/

/-- An indexed block of n indices over rows of e lines, table of t rows; policy and operation in its XPAR. -/
def indexedBlock (kind : BlockKind) (n e t src dst pol op : Nat) : Block :=
  { copyBlock 0 1 src dst with
    kind := kind
    desc := BitVec.ofNat 256 (n + 2 * 2 ^ 60 + src * 2 ^ 64 + e * 2 ^ 176 + dst * 2 ^ 128 + t * 2 ^ 216 + 300 * 2 ^ 240)
    xpar := BitVec.ofNat 256 (640 + pol * 2 ^ 58 + op * 2 ^ 56) }
/-- Core 0 with an indexed block whose indices are examined: 1, none, 2. -/
def examined (kind : BlockKind) (op src dst : Nat) : Block :=
  { indexedBlock kind 3 2 8 src dst 1 op with access := 1, arrived := [(0, 0)], staged := [(0, 0)], indices := [some 1, none, some 2] }
/-- An index line: 3, -1, 9. -/
def indexLine : Line := BitVec.ofNat 512 (3 + (2 ^ 32 - 1) * 2 ^ 32 + 9 * 2 ^ 64)
/-- Core 0 with a gather block, indices at line 10 of its slice. -/
def gathering (b : Block) (cyc : Nat) : State := ((blockAt b cyc).putLine 640 indexLine).putLine (8192 + 128) 0xABCD

theorem witness_indices : (gathering (indexedBlock .gather 3 2 8 8192 4096 1 0) 30).liveOf 0 = some 0 ∧
    (gathering (indexedBlock .gather 3 2 8 8192 4096 1 0) 30).blockOf 0 0 = some (indexedBlock .gather 3 2 8 8192 4096 1 0) ∧
    (indexedBlock .gather 3 2 8 8192 4096 1 0).indexed = true ∧ (indexedBlock .gather 3 2 8 8192 4096 1 0).indexBase = 640 ∧
    0 < (indexedBlock .gather 3 2 8 8192 4096 1 0).indexLines ∧ (indexedBlock .gather 3 2 8 8192 4096 1 0).policy = 1 ∧
    1 ≤ ((gathering (indexedBlock .gather 3 2 8 8192 4096 1 0) 30).part 0).now ∧
    (gathering (indexedBlock .gather 3 2 8 8192 4096 1 0) 30).poisoned 640 = false ∧ ([(0, 20)].find? (fun x : Nat × Nat => x.1 == 0)) = some (0, 20) := by
  decide +kernel
theorem witness_gather_turn :
    ((gathering (examined .gather 0 8192 4096) 30).core 0).str.turning = some (examined .gather 0 8192 4096) ∧
    dNidx (examined .gather 0 8192 4096).desc = 3 ∧ dRows (examined .gather 0 8192 4096).desc = 2 ∧
    ((gathering (examined .gather 0 8192 4096) 30).core 0).str.turnDue (examined .gather 0 8192 4096) ≤ 31 ∧
    ((gathering (examined .gather 0 8192 4096) 30).core 0).str.path ≤ 31 ∧
    (gathering (examined .gather 0 8192 4096) 30).slotIdle 0 8320 false = true ∧ (gathering (examined .gather 0 8192 4096) 30).poisoned 8320 = false ∧
    isHbm 8320 = false ∧ isHbm (hbmBase + 128) = true := by decide +kernel
theorem witness_scatter_turn :
    ((gathering (examined .scatter 1 8192 4096) 30).core 0).str.turning = some (examined .scatter 1 8192 4096) ∧
    (examined .scatter 1 8192 4096).addOp = 1 ∧ (examined .scatter 0 8192 4096).addOp = 0 ∧
    (gathering (examined .scatter 1 8192 4096) 30).pendingLine 0 4224 = false ∧
    (gathering (examined .scatter 1 8192 4096) 30).slotIdle 0 4224 false = true ∧
    (gathering (examined .scatter 1 8192 4096) 30).slotIdle 0 8192 false = true ∧
    (gathering (examined .scatter 1 8192 4096) 30).poisoned 8192 = false ∧ (gathering (examined .scatter 1 8192 4096) 30).poisoned 4224 = false ∧
    bankGroup 8192 ≠ bankGroup 4224 ∧ bankGroup 8192 = bankGroup (3968 + 128) := by decide +kernel
theorem witness_indexed_write :
    (blockAt { examined .gather 0 8192 4096 with outs := [destination 4160 false 0] } 31).blockOf 0 0 =
      some { examined .gather 0 8192 4096 with outs := [destination 4160 false 0] } ∧
    (destination 4160 false 0).due ≤ 31 ∧
    (blockAt { examined .gather 0 8192 4096 with outs := [destination 4160 false 0] } 31).idle 0 (resWrite 0 (bankGroup 4160)) = true := by
  decide +kernel

/-- An indexed block at its turn of the row whose index was skipped. -/
def skipping (kind : BlockKind) : Block := { examined kind 0 8192 4096 with turn := 2, lastTurn := 29 }
/-- A scatter-add whose packed line lies in the bank group of its table line, and the same with that line read. -/
def sharing (l : List (Nat × Line)) : Block := { examined .scatter 1 8192 8064 with staged := (0, 0) :: l }
theorem witness_other_turns :
    ([skipping .gather, skipping .scatter, examined .gather 0 hbmBase 4096].all (fun b => ((gathering b 30).core 0).str.turning == some b &&
      decide (((gathering b 30).core 0).str.turnDue b ≤ ((gathering b 30).part 0).now) && !((gathering b 30).core 0).str.excess)) = true ∧
    (skipping .gather).indices.getD (2 / 2) none = none ∧
    ((gathering { examined .gather 0 hbmBase 4096 with
      srcs := [{ idx := 9, addr := hbmBase, due := 0, data := none, late := true, unsent := true }] } 30).core 0).str.excess = true ∧
    bankGroup 8192 = bankGroup (8064 + 128) ∧ (gathering (sharing []) 30).pendingLine 0 8192 = false ∧
    (sharing [(2 ^ 40, 5)]).staged.find? (fun y => y.1 == 2 ^ 40 + 0) = some (2 ^ 40, 5) ∧
    (gathering (sharing [(2 ^ 40, 5)]) 30).slotIdle 0 8192 false = true ∧ (gathering (sharing []) 30).poisoned 8192 = false := by decide +kernel
theorem witness_lagging_index : (let b := { indexedBlock .gather 3 2 8 8192 4096 1 0 with lag := true }
    (gathering b 30).slotIdle 0 640 false = true ∧ (gathering b 30).blockOf 0 0 = some b) ∧
    (let b := { examined .gather 0 8192 4096 with outs := [destination hbmBase false 0] }
     (blockAt b 31).blockOf 0 0 = some b ∧ placeOf (destination hbmBase false 0).addr = .hbm) := by decide +kernel

/-- Stack 0 channel 0 with a queue of its own. -/
def channelWith (f : PseudoChannel → PseudoChannel) : State := { streaming with clk := { streaming.clk with tb := 5000 } }.modPc 0 f
/-- A read of line 0 of block 0 of core 0. -/
def aRead : HbmReq := .read 0 0 0 hbmBase
theorem witness_hbm : (let s := { channelWith id with transit := [{ at_ := 0, core := 0, place := 0, pc := 0, req := aRead }] }
      s.nextEntry (chanOf 0 0) = some { at_ := 0, core := 0, place := 0, pc := 0, req := aRead } ∧ (s.pc 0).forcedAhead = false) ∧
    ((channelWith (fun q => { q with queue := [aRead] })).pc (chanOf 0 0)).queue = [aRead] ∧
    ((channelWith (fun q => { q with queue := [aRead] })).pc 0).serving = none ∧
    ((channelWith (fun q => { q with queue := [aRead] })).pc 0).busyTo ≤ (channelWith (fun q => { q with queue := [aRead] })).ns ∧
    ((channelWith (fun q => { q with reads := [(aRead, 9)] })).pc 0).reads = [(aRead, 9)] ∧
    ((channelWith (fun q => { q with serving := some (.write 0 0 0 hbmBase 5, 4000) })).pc 0).serving = some (.write 0 0 0 hbmBase 5, 4000) ∧
    memWf (channelWith id).mem = true := by decide +kernel
/-- The partition with a share of one band in scheduled refresh mode. -/
def scheduled : State := (channelWith id).modPart 0 (fun q => { q with pr := { q.pr with refm := true } })
theorem witness_refresh : (channelWith id).grade.fitted (0 : Fin 6).val = true ∧ (channelWith id).scheduledRefresh (chanOf 0 0) = false ∧
    ((channelWith id).pc 0).lastRefresh + 3900 ≤ (channelWith id).ns ∧ scheduled.ownerOf (chanOf 0 0) = some 0 ∧
    scheduled.scheduledRefresh (chanOf 0 0) = true ∧ (scheduled.pc 0).lastRefresh + 1950 ≤ scheduled.ns ∧ (scheduled.part 0).issuing = true ∧
    (scheduled.coresOf 0).head? = some 0 := by decide +kernel
/-- Core 0 with its slice's first 448 KiB as a weight region, after its cycle's bundles. -/
def weighted (f : CoreConfig → CoreConfig) : State :=
  (cycled streaming).modCfg 0 (fun g => f { g with region := g.region.set 0 (BitVec.ofNat 64 (2 ^ 63 + 2 ^ 61 + 7)) })
theorem witness_scrub : nextScrub (((weighted id).core 0).weightRanges 0) ((weighted id).core 0).cfg.scrubAt = some 0 ∧
    ((weighted id).core 0).cfg.scrubBack = none ∧ (weighted id).spare 0 (resRead 0 (bankGroup 0)) = true ∧ (weighted id).spare 0 (resScrub 0) = true ∧
    (weighted id).wanted 0 (resRead 0 (bankGroup 0)) = false ∧ sliceOwner 0 = some 0 ∧ ((weighted id).found 0 (.uncorrectable 1 0)).failed = true ∧
    nextScrub (((weighted id).core 0).weightRanges 0) 2000000 = none ∧ nextScrub (((weighted id).core 0).weightRanges 0) 0 = some 0 ∧
    ((weighted (fun g => { g with scrubBack := some (0, 7) })).core 0).cfg.scrubBack = some (0, 7) ∧
    (weighted id).spare 0 (resWrite 0 (bankGroup 0)) = true ∧ (weighted id).wanted 0 (resWrite 0 (bankGroup 0)) = false ∧ memWf (weighted id).mem = true := by decide +kernel

/-! ## The matrix engines -/

/-- Partition 0 with K0 of core 0 set. -/
def computing : State := streaming.modCtl 0 (fun u => { u with k := u.k.set 0 true })
/-- An INT8 operation of four k-cycles on tiles 0 and 2, issued at count 1, with its first operands. -/
def mmaOp (w : BitVec 56) (ex : Bool) (next : Nat) : MmaOp :=
  { opc := 0x10, w := w, bundle := 0, p := 2, f := 1, passes := 1, exec := ex, next := next, a := [(next, 0x80FF0305)], b := [(next, 0x7F80FE02)],
    sa := [], sb := [], md := [] }
/-- Engine 0 of core 0 with that operation, its write due. -/
def writing (o : MmaOp) : State :=
  (streaming.modPart 0 (fun q => { q with icount := 20, cyc := 20, cycDone := true, issued := true })).modMx 0 0 (fun m => { m with ops := [o] })
/-- Fields of an MMA word: tiles 0 and 2, four k-cycles, shape 128 x 128, its further bits. -/
def mmaWord (more : Nat) : BitVec 56 := BitVec.ofNat 56 (2 * 2 ^ 48 + 4 * 2 ^ 12 + more)

theorem witness_mma : Clean computing 0 (computing.mxCauses 0 0 (0x10#8 ++ mmaWord 0)) ∧ computing.partOf 0 = some 0 := by
  unfold Clean; decide +kernel
/-- Tile 12 of engine 0 with the metadata of one block, each byte v. -/
def keeping (v : Nat) : State := (List.range 2).foldl (fun s i => s.putLine (tileAlias 0 0 12 i) (BitVec.ofNat 512 (v * ((2 ^ 512 - 1) / 255)))) computing
theorem witness_sparse : Clean (keeping 0x0F) 0 ((keeping 0x0F).mxCauses 0 0 (0x30#8 ++ BitVec.ofNat 56 (8 * 2 ^ 48 + 12 * 2 ^ 44 + 2 * 2 ^ 12))) ∧
    Clean (keeping 0x11) 0 ((keeping 0x11).mxCauses 0 0 (0x50#8 ++ BitVec.ofNat 56 (8 * 2 ^ 48 + 12 * 2 ^ 44 + 2 * 2 ^ 12))) := by unfold Clean; decide +kernel
theorem witness_drain : Clean computing 0 (computing.mxCauses 0 1 (0x01#8 ++ 0#56)) ∧
    Clean computing 0 (computing.mxCauses 0 1 (0x02#8 ++ 0#56)) := by unfold Clean; decide +kernel
/-- Engine 0 with a chunk of a drain staged, at an issue count. -/
def draining (n icount : Nat) : State :=
  (streaming.modMx 0 0 (fun m => { m with drains := [{ d := 0, acs := false, mode := 0, qg := 0, shp := 0, chunks := [(n, 9)] }] })).modPart 0
    (fun q => { q with icount := BitVec.ofNat 64 icount })
theorem witness_chunk : ((draining 3 7).part 0).issuing = true ∧ ((draining 3 7).part 0).cycDone = false ∧
    (((draining 3 7).core 0).mx[(0 : EngId)].chunkDue ((draining 3 7).part 0).icount.toNat).isSome = true := by decide +kernel
theorem witness_gating : { mmaOp (mmaWord (124 * 2 ^ 12)) false 0 with passes := 1 }.t = 128 ∧ (mmaOp (mmaWord (28 * 2 ^ 12)) false 0).t = 32 ∧
    ones (((computing.countGating 0 0 (mmaOp (mmaWord (124 * 2 ^ 12)) false 0) 0).core 0).mx[(0 : EngId)]).gated = 0 := by decide +kernel
theorem witness_acc_write : ((writing (mmaOp (mmaWord 0) true 0)).part 0).live = true ∧ ((writing (mmaOp (mmaWord 0) true 0)).part 0).cycDone = true ∧
    ((writing (mmaOp (mmaWord 0) true 0)).part 0).issued = true ∧
    ((writing (mmaOp (mmaWord 0) true 0)).core 0).mx[(0 : EngId)].ops = [mmaOp (mmaWord 0) true 0] ∧
    2 + (0 + 1) * 1 + 5 ≤ ((writing (mmaOp (mmaWord 0) true 0)).part 0).count ∧ (mmaOp (mmaWord 0) true 0).form.isComplex = false ∧
    (mmaOp (mmaWord 0) true 0).form.kind = .dense ∧ mGroup (mmaOp (mmaWord 0) true 0).form (mmaWord 0) = 0 ∧
    (mmaOp (mmaWord 0) true 0).form.fa.isInt = true ∧ (mmaOp (mmaWord 0) true 0).form.fa.four = false ∧
    (mmaOp (mmaWord 0) true 0).form.fb.four = false ∧ 0 < mKcy (mmaWord 0) := by decide +kernel
/-- An operation of an opcode at a k-cycle of four. -/
def mmaAt (opc : BitVec 8) (passes more next : Nat) : MmaOp := { mmaOp (mmaWord more) true next with opc := opc, passes := passes, md := [(0, 0x0F)] }
/-- Whether a k-cycle of it exists, its passes are the form's, and its kind, its group of k-steps and whether A has 4-bit or wide elements are the given ones. -/
def valueCase (o : MmaOp) (kind : MmaKind) (group : Nat) (four wide : Bool) : Bool :=
  o.passes == o.form.passes && decide (o.next < o.passes * mKcy o.w) && o.form.kind == kind && mGroup o.form o.w == group &&
    o.form.fa.four == four && o.form.fa.wide == wide
theorem witness_matrix_values :
    valueCase (mmaAt 0x10 1 0 3) .dense 0 false false = true ∧ valueCase (mmaAt 0x1D 1 0 0) .dense 0 false true = true ∧
    valueCase (mmaAt 0x1F 9 0 35) .dense 0 false true = true ∧ valueCase (mmaAt 0x20 4 0 15) .complex 0 false false = true ∧
    valueCase (mmaAt 0x14 1 0 3) .dense 32 false false = true ∧ valueCase (mmaAt 0x14 1 256 3) .dense 32 false false = true ∧
    valueCase (mmaAt 0x34 1 0 3) .sparse4 32 false false = true ∧ valueCase (mmaAt 0x50 1 0 1) .sparse2 0 false false = true := by decide +kernel
theorem witness_matrix_groups : (mmaAt 0x14 1 0 2).groupEnd 2 = false ∧ (mmaAt 0x14 1 0 3).groupEnd 3 = true ∧
    (List.replicate 16384 Partial.zero).length = 16384 ∧ shpM 0 * shpN 0 = 16384 ∧ mScaled (mmaAt 0x14 1 256 3).form (mmaAt 0x14 1 256 3).w = true :=
  ⟨by decide +kernel, by decide +kernel, List.length_replicate, by decide, by decide +kernel⟩
theorem witness_drain_stage : ∃ d : DrainOp, d.chunks = [(3, 9)] ∧ d.mode = 4 ∧ d.qg ≠ 0 :=
  ⟨{ d := 0, acs := false, mode := 4, qg := 1, shp := 0, chunks := [(3, 9)] }, by decide +kernel, by decide, by decide⟩

/-! ## The vector engine -/

/-- Core 0 with operands in V1 and V2, two lanes off in Q1, P0 at line 16 of its slice. -/
def vectoring : State := ((streaming.putLine 1024 0x1234).modVec 0 (fun v => { v with
    v := (v.v.set 1 (BitVec.ofNat 16384 0x8000000000000005FFFFFFFF7F80FF01)).set 2 (BitVec.ofNat 16384 0x00000003FFFFFFFF0000002101800203)
    q := v.q.set 1 ((2 ^ 512 - 1) - 5) })).modCtl 0 (fun u => { u with p := u.p.set 0 1024 })
/-- Fields of a vector word: V3 from V1 and V2, type 1, and its further bits. -/
def vectorWord (ty more : Nat) : BitVec 56 := BitVec.ofNat 56 (3 * 2 ^ 51 + 2 ^ 46 + 2 * 2 ^ 41 + ty * 2 ^ 32 + more)
/-- The same core with a result due. -/
def landing (x : VPending) : State := vectoring.modVec 0 (fun v => { v with pend := [x] })
/-- A result of 2 flags, due at once. -/
def result (dest : VDest) : VPending := { due := 0, dest := dest, flags := 2, through := none, bundle := 0 }

theorem witness_vector : Clean vectoring 0 (vectoring.vecCauses 0 (0x08#8 ++ vectorWord 1 0)) ∧
    Clean vectoring 0 (vectoring.vecCauses 0 (0x3D#8 ++ 0#56)) := by unfold Clean; decide +kernel
theorem witness_vector_memory : Clean vectoring 0 (vectoring.vecCauses 0 (0x38#8 ++ BitVec.ofNat 56 (3 * 2 ^ 51 + 3 * 2 ^ 19))) ∧
    Clean vectoring 0 (vectoring.vecCauses 0 (0x39#8 ++ BitVec.ofNat 56 (2 ^ 46 + 3 * 2 ^ 19))) := by unfold Clean; decide +kernel
theorem witness_lanes : (vTy (vectorWord 1 0), 32) ∈ [(1, 32), (4, 16), (5, 8)] ∧ (vTy (vectorWord 5 0), 8) ∈ [(1, 32), (4, 16), (5, 8)] ∧
    Clean vectoring 0 (vectoring.vecCauses 0 (0x0A#8 ++ vectorWord 4 (2 ^ 28 + 2 ^ 29))) ∧
    Clean vectoring 0 (vectoring.vecCauses 0 (0x15#8 ++ vectorWord 5 0)) := by unfold Clean; decide +kernel
theorem witness_landing : (landing (result (.reg 3 5 1))).partOf 0 = some 0 ∧ ((landing (result (.reg 3 5 1))).part 0).issuing = true ∧
    ((landing (result (.reg 3 5 1))).part 0).cycDone = false ∧ ((landing (result (.reg 3 5 1))).core 0).vec.pend.head? = some (result (.reg 3 5 1)) ∧
    (result (.reg 3 5 1)).due ≤ ((landing (result (.reg 3 5 1))).part 0).icount.toNat ∧
    (landing (result (.load 3 1024 3 0))).poisoned 1024 = false := by decide +kernel
/-- A word of V3 from V1 and further registers with FN. -/
def vectorFn (vb vc ty fn : Nat) : BitVec 56 := BitVec.ofNat 56 (3 * 2 ^ 51 + 2 ^ 46 + vb * 2 ^ 41 + vc * 2 ^ 36 + ty * 2 ^ 32 + fn)
theorem witness_vector_values : Clean vectoring 0 (vectoring.vecCauses 0 (0x0B#8 ++ vectorFn 2 4 0 0)) ∧
    Clean vectoring 0 (vectoring.vecCauses 0 (0x0B#8 ++ vectorFn 2 4 2 0)) ∧ Clean vectoring 0 (vectoring.vecCauses 0 (0x20#8 ++ vectorFn 2 0 0 7)) ∧
    Clean vectoring 0 (vectoring.vecCauses 0 (0x21#8 ++ vectorFn 2 0 0 32)) ∧ Clean vectoring 0 (vectoring.vecCauses 0 (0x22#8 ++ vectorFn 0 0 0 32)) := by
  unfold Clean; decide +kernel
theorem witness_vector_trees : Clean vectoring 0 (vectoring.vecCauses 0 (0x28#8 ++ vectorFn 0 0 0 5)) ∧
    Clean vectoring 0 (vectoring.vecCauses 0 (0x30#8 ++ vectorFn 0 0 1 0)) ∧ Clean vectoring 0 (vectoring.vecCauses 0 (0x18#8 ++ vectorFn 2 0 0 5)) := by
  unfold Clean; decide +kernel

/-! ## Bundles and holds -/

/-- Cores 0 and 1 with code regions of one all-NOP bundle each at the start of their slices. -/
def idling : State :=
  let code := fun (g : CoreConfig) => { g with codeLen := 0x10000, codeBase := 0 }
  (((one.modCfg 0 code).modCfg 1 code).modCtl 0 (fun u => { u with pc := 0 })).modCtl 1 (fun u => { u with pc := BitVec.ofNat 48 (sliceBase 1) })
theorem witness_bundle : (idling.part 0).live = true ∧ (idling.part 0).cycDone = false ∧ (idling.part 0).mustHold = false ∧
    (idling.preDue 0).isNone = true ∧ idling.replaying 0 = false ∧ (idling.coresOf 0).length = 2 ∧
    idling.inCode 0 (idling.core 0).ctl.pc.toNat = true ∧ idling.inCode 1 (idling.core 1).ctl.pc.toNat = true ∧
    idling.line (idling.core 0).ctl.pc.toNat = 0 ∧ idling.poisoned (idling.core 0).ctl.pc.toNat = false ∧
    (allEngs.all (fun e => (idling.core 0).mx[e].ops.isEmpty && (idling.core 0).mx[e].present.isNone && (idling.core 0).mx[e].gated == 0)) = true ∧ (idling.core 0).ctl.redirect = none ∧ (idling.core 0).ctl.reps = [] ∧
    (idling.part 0).resv = [] := by decide +kernel
/-- A hold before the bundle at hand. -/
def holding (begun : Bool) (run : Nat) (ends : Option Nat) : State := withPart (fun q => { q with
  icount := 20, cyc := 20
  holds := [{ before := 20, items := [], begun := begun, ends := ends, last := .pend, run := run, script := [] }] })
theorem witness_holds : ((holding false 0 none).part 0).live = true ∧ ((holding false 0 none).part 0).haltHeld = false ∧
    ((holding false 0 none).part 0).hold.isSome = true ∧ ((holding true 3 none).part 0).hold.isSome = true ∧
    (∃ h, ((holding true 3 none).part 0).hold = some h ∧ h.begun = true ∧ (holding true 3 none).releasable 0 h = false) ∧
    (∃ h, ((holding true 3 (some 5)).part 0).hold = some h ∧ (holding true 3 (some 5)).releasable 0 h = true) :=
  ⟨by decide +kernel, by decide +kernel, by decide +kernel, by decide +kernel, ⟨_, rfl, by decide +kernel, by decide +kernel⟩,
    ⟨_, rfl, by decide +kernel⟩⟩
/-- Its core 0 halted, the halt hold at hand. -/
def haltHolding (told : Bool) : State := (one.haltCore 0 false 0 0x80 0 0).modPart 0 (fun q => { q with haltLimit := some 0, haltTold := told })
theorem witness_halt_hold : ((haltHolding false).part 0).live = true ∧ ((haltHolding false).part 0).haltHeld = true ∧
    ((haltHolding false).part 0).haltTold = false ∧ ((haltHolding true).part 0).haltTold = true ∧ ((haltHolding true).part 0).cycDone = false := by
  decide +kernel

/-! ## Messages and services -/

/-- A message with a payload on its way from core 1. -/
def onItsWay (m : Msg) : State := { talking with net := [m] }
/-- A request from core 1 to an endpoint, HND h, ARG 5. -/
def request (dep h : Nat) (payload : Line) : Msg := { hdr := mkHdr 1 false 0 0 dep 0 1 h 5, payload := payload, gen := 0 }
/-- A request of core 1 that wants no reply, and messages of module 1: a request to core 0, one to the manager die, an answer for module 1. -/
def wordless : Msg := { request 0 3 7 with hdr := mkHdr 1 true 0 0 0 0 1 3 5 }
def fromAfar (dep : Nat) : Msg := { request dep 3 7 with hdr := mkHdr 1 false 0 0 dep 1 64 3 5 }
def answerAfar : Msg := { msg 2 0 with hdr := mkHdr 2 false 0 1 5 0 64 3 5 }
theorem witness_receiver : (onItsWay (request 0 3 7)).net[0]? = some (request 0 3 7) ∧ (onItsWay (request 0 3 7)).behind 0 (request 0 3 7) = false ∧
    (request 0 3 7).kind = 1 ∧ (onItsWay (request 0 3 7)).ownCore (request 0 3 7).dmod (request 0 3 7).dep = some 0 ∧
    (onItsWay (request 0 3 7)).closed 0 = false ∧ (onItsWay (request 9 3 7)).closed 9 = true ∧
    (onItsWay (request 0 3 7)).yields (request 0 3 7) = false ∧ (onItsWay (request 0 3 7)).enters (request 0 3 7) = true ∧
    (onItsWay (request 9 3 7)).enters (request 9 3 7) = true ∧ (onItsWay (request 0 3 7)).inReplay 0 = false ∧
    (request 0 3 7).smod = talking.fab.cfg.modid.toNat ∧ (onItsWay wordless).enters wordless = true ∧ wordless.nr = true ∧
    epCore wordless.sep = some 1 ∧ (talking.core 1).mu.gen = wordless.gen ∧
    (onItsWay (msg 2 0)).carries (msg 2 0) = true ∧ (onItsWay (msg 2 0)).closed 0 = false ∧ (onItsWay { msg 2 0 with gen := 9 }).behind 0 { msg 2 0 with gen := 9 } = false ∧
    (onItsWay (request 64 1 7)).ownCore 0 64 = none ∧ (onItsWay (request 64 1 7)).sourcePart (request 64 1 7) = some 0 ∧
    epCore (msg 2 0).dep = some 0 ∧ (talking.core 0).mu.gen = (msg 2 0).gen := by decide +kernel
/-- Core 0 with a request in its queue and handler entry 3 of one operation on line 0, the whole slice a region. -/
def serving (op : BitVec 48) (running : Bool) : State :=
  ((streaming.modCfg 0 (fun g => { g with hnd := [(24, op)] })).modMu 0 (fun u => { u with
    rqDepth := 32, rpDepth := 32, rq := [request 0 3 0x0000000500000007]
    handler := if running then some { req := request 0 3 0x0000000500000007, op := 0, replied := false } else none })).modSyn 0
      (fun y => { y with cap := .replicate 48 255 })
/-- An operation with its fields. -/
def operation (opc fields : Nat) : BitVec 48 := BitVec.ofNat 48 (opc * 2 ^ 40 + fields)
/-- Core 1 with a handler at SSIG of its own counter 5. -/
def signalling : State :=
  ((streaming.modCfg 1 (fun g => { g with hnd := [(24, operation 0x01 (5 * 2 ^ 32 + 2 ^ 24))] })).modMu 1 (fun u => { u with
    handler := some { req := request 1 3 7, op := 0, replied := false } })).modSyn 1 (fun y => { y with cap := .replicate 48 255 })
theorem witness_handler_signal : signalling.handles 1 = some 0 ∧
    (signalling.core 1).handlerOp = some ({ req := request 1 3 7, op := 0, replied := false }, operation 0x01 (5 * 2 ^ 32 + 2 ^ 24)) ∧
    signalling.operationBad 1 { req := request 1 3 7, op := 0, replied := false } (operation 0x01 (5 * 2 ^ 32 + 2 ^ 24)) = none ∧
    (signalling.part 0).nextSignal 1 = none ∧ (signalling.part 0).used = [] ∧ (signalling.core 1).syn.count 5 + 1 ≤ (signalling.core 1).sigCap 5 := by
  decide +kernel
theorem witness_handlers : (serving (operation 0x24 1) false).handles 0 = some 0 ∧ (∀ q, (serving (operation 0x24 1) false).recording q = false) ∧
    opc48 (((serving (operation 0x24 1) false).core 0).cfg.operation 3 0) ≠ 0 ∧
    ((serving (operation 0x24 1) true).core 0).handlerOp = some ({ req := request 0 3 0x0000000500000007, op := 0, replied := false }, operation 0x24 1) ∧
    (serving (operation 0x24 1) true).operationBad 0 { req := request 0 3 0x0000000500000007, op := 0, replied := false } (operation 0x24 1) = none ∧
    (serving (operation 0x25 (2 ^ 38 + 1)) true).operationBad 0 { req := request 0 3 7, op := 0, replied := false } (operation 0x25 (2 ^ 38 + 1)) = none ∧
    (serving (operation 0x26 1) true).operationBad 0 { req := request 0 3 7, op := 0, replied := false } (operation 0x26 1) = none ∧
    (serving (operation 0x24 1) true).writeFree 0 = false ∧ (cycled (serving (operation 0x24 1) true)).writeFree 0 = true ∧
    (cycled (serving (operation 0x24 1) true)).readFree 0 = true ∧ (cycled (serving (operation 0x24 1) true)).handles 0 = some 0 ∧
    sliceOwner (handlerLine 0 (operation 0x25 (2 ^ 39 + 1)) 5) = some 0 ∧ handlerLine 0 (operation 0x24 1) 5 = 0 ∧
    (serving (operation 0x25 (2 ^ 39 + 1)) true).operationBad 0 { req := request 0 3 7, op := 0, replied := false } (operation 0x25 (2 ^ 39 + 1)) = none ∧
    (serving 0 true).poisoned 0 = false ∧ ((serving 0 true).modCfg 0 (fun g => { g with poison := [0] })).poisoned 0 = true ∧
    ((serving (operation 0x20 0) true).core 0).ctl.halted = false ∧
    opc48 (operation 0x20 0) = 0x20 ∧ opc48 (operation 0 0) = 0 := by decide +kernel
/-- Core 0's handler at MAADD of a poisoned line 0, its reply sent or not; a handler entry with no operation. -/
def addingToPoison (replied : Bool) : State := ((cycled (serving (operation 0x26 1) true)).modCfg 0 (fun g => { g with poison := [0] })).modMu 0
  (fun u => { u with handler := u.handler.map (fun h => { h with replied := replied }) })
theorem witness_handler_halts : ((addingToPoison false).core 0).handlerOp.map (fun h => h.1.replied) = some false ∧
    ((addingToPoison true).core 0).handlerOp.map (fun h => h.1.replied) = some true ∧ (addingToPoison false).poisoned 0 = true ∧
    (addingToPoison false).readFree 0 = true ∧ (addingToPoison false).writeFree 0 = true ∧
    (serving 0 false).handles 0 = some 0 ∧ opc48 (((serving 0 false).core 0).cfg.operation 3 0) = 0 ∧ ((serving 0 false).core 0).ctl.halted = false ∧
    ((serving 0 false).part 0).cycDone = false ∧ ((serving (operation 0x20 0) true).part 0).cycDone = false ∧
    ((cycled (serving (operation 0x20 0) true)).part 0).cycDone = true ∧ (cycled (serving (operation 0x20 0) true)).handles 0 = some 0 := by decide +kernel
/-- Partition 0 with memory, an unlimited weir, session 1 open on it and a service for core 1. -/
def served (v : Service) : State :=
  let s := (streaming.modAct 248 (fun a => { a with budget := 0xFFFFF })).modSession 1 (fun x => { x with
    valid := true, outLn := 4, nring := 8, outRing := 0x10000, cpl := 0x20000, act := 248 })
  { s with services := [v] }
/-- A service that has not begun. -/
def service (m : Msg) : Service := { req := m, accepted := false, left := 0, off := 0, sent := false }
/-- The payload of an output of two lines from line 32 of core 0's slice. -/
def sendsOut : Line := BitVec.ofNat 512 (1 + 2 * 2 ^ 32 + 2048 * 2 ^ 64 + 77 * 2 ^ 128)
theorem witness_services : (served (service (request 64 9 0))).services[0]? = some (service (request 64 9 0)) ∧
    (request 64 9 0).smod = streaming.fab.cfg.modid.toNat ∧ (request 64 9 0).dmod = streaming.fab.cfg.modid.toNat ∧
    ((served (service (request 64 1 sendsOut))).session 1).valid = true ∧ (request 64 1 sendsOut).bytes 0 2 = 1 ∧
    (request 64 1 sendsOut).bytes 4 4 = 2 ∧ (request 64 1 sendsOut).bytes 8 6 = 2048 ∧
    (served (service (request 64 1 sendsOut))).sourcePart (request 64 1 sendsOut) = some 0 ∧
    insideOne ((served (service (request 64 1 sendsOut))).ownSpans 0) 2048 128 = true ∧
    ((served (service (request 64 1 sendsOut))).act 248).budget = 0xFFFFF ∧ (served (service (request 64 1 sendsOut))).queued 248 = false ∧
    (served (service (request 64 1 sendsOut))).soft = [] ∧ (served (service (request 64 1 sendsOut))).softDone = [] ∧
    (served (service (request 64 1 sendsOut))).liveAt 2048 = true ∧ (served (service (request 64 1 0))).soutBad (request 64 1 0) = true := by decide +kernel
/-- The lines of that output, read, one uncorrectable or none. -/
def outputRead (bad : Bool) : State :=
  let v : Service := { service (request 64 1 sendsOut) with accepted := true }
  { served v with softDone := [{ id := 0, todo := [], owed := 0, got := [(2048, 1), (2112, 2)], bad := bad, errs := [], source := 2, core := 1, fin := .service v.req }] }
theorem witness_output_read : ((outputRead false).softEnded (.service (request 64 1 sendsOut))).isSome = true ∧
    ((outputRead true).softEnded (.service (request 64 1 sendsOut))).map (fun j => j.bad) = some true ∧
    ((outputRead false).session 1).valid = true ∧ raisable (vectorOf ((outputRead false).session 1).func.toNat ((outputRead false).session 1).vec.toNat) = true := by decide +kernel
/-- A module of two, module 1 reached by port 0, which is up. -/
def linked (role flow : Nat) (s : State) : State :=
  ({ s with fab := { s.fab with cfg := { s.fab.cfg with
      role := BitVec.ofNat _ role, modid := 0, nmod := 2, flow := BitVec.ofNat _ flow, route := 0, ports := 1 } } }).modPort 0 (fun q => { q with
    inUse := true, up := true, credits := 64 })
/-- The payload of a move of 3 units from unit 0 of tensor 7 to line 64 of core 0's slice. -/
def moves : Line := BitVec.ofNat 512 (7 + 2 ^ 32 + 3 * 2 ^ 128 + 4096 * 2 ^ 160)
/-- Tensor 7, version 1, of ten units, all of them in this module's memory from line 16 on. -/
def owned : List (BitVec 128) := [BitVec.ofNat 128 (7 + 2 ^ 32 + 10 * 2 ^ 64), 0, 0, 0, BitVec.ofNat 128 (10 * 2 ^ 40 + 1024 * 2 ^ 64)]
/-- A service with that table registered. -/
def moving (v : Service) : State := let s := served v; { s with asz := { s.asz with owners := [owned] } }
/-- A move under way. -/
def underWay (h : Nat) : Service := { req := request 64 h moves, accepted := true, left := 3, off := 0, sent := false }
/-- The same move between HBM lines, its first line at an address. -/
def movesHbm : Line := BitVec.ofNat 512 (7 + 2 ^ 32 + 3 * 2 ^ 128 + (hbmBase + 4096) * 2 ^ 160)
def underWayHbm (h : Nat) : Service := { underWay h with req := request 64 h movesHbm }
/-- Its table, its units owned by a module. -/
def movingHbm (v : Service) (owner : Nat) : State :=
  let s := linked 2 0 (served v)
  { s with asz := { s.asz with owners := [[BitVec.ofNat 128 (7 + 2 ^ 32 + 10 * 2 ^ 64), 0, 0, 0, BitVec.ofNat 128 (10 * 2 ^ 40 + hbmBase * 2 ^ 64 + owner * 2 ^ 112)]] } }
theorem witness_moves : (moving (service (request 64 0x10 moves))).moveBad (request 64 0x10 moves) = false ∧
    (moving (service (request 64 0x10 0))).moveBad (request 64 0x10 0) = true ∧
    (moving (service (request 64 0x10 moves))).movePart (service (request 64 0x10 moves)).moving ≠ none ∧
    (served (service (request 64 0x10 moves))).movePart (service (request 64 0x10 moves)).moving = none ∧
    (served (service (request 64 0x10 moves))).moveBad (request 64 0x10 moves) = false ∧
    (moving (underWay 0x10)).movePart (underWay 0x10) = some ⟨3, 0, 1024, 4096⟩ ∧ (moving (underWay 0x10)).partAt 1024 = some 0 ∧
    (moving (underWay 0x10)).sourcePart (underWay 0x10).req = some 0 ∧ memWf (moving (underWay 0x10)).mem = true := by decide +kernel
theorem witness_hbm_moves : (movingHbm (underWayHbm 0x10) 0).movePart (underWayHbm 0x10) = some ⟨3, 0, hbmBase, hbmBase + 4096⟩ ∧
    (movingHbm (underWayHbm 0x10) 0).sourcePart (underWayHbm 0x10).req = some 0 ∧ (movingHbm (underWayHbm 0x10) 0).partAt hbmBase = some 0 ∧
    ((movingHbm (underWayHbm 0x10) 0).act 248).budget = 0xFFFFF ∧ (movingHbm (underWayHbm 0x10) 0).queued 248 = false ∧
    (movingHbm (underWayHbm 0x10) 0).fab.d2dTraining = false ∧ (∀ q, (movingHbm (underWayHbm 0x10) 0).recording q = false) ∧
    ((List.range 3).all (fun i => !(movingHbm (underWayHbm 0x10) 0).poisoned (hbmBase + 64 * i))) = true ∧
    (movingHbm (underWayHbm 0x10) 1).movePart (underWayHbm 0x10) = some ⟨3, 1, hbmBase, hbmBase + 4096⟩ ∧
    (movingHbm (underWayHbm 0x10) 1).toward 1 = some 0 ∧ (movingHbm (underWayHbm 0x10) 1).soft = [] ∧
    (let s := { movingHbm (underWayHbm 0x10) 0 with
       softDone := [{ id := 0, todo := [], owed := 0, got := [], bad := false, errs := [], source := 2, core := 1, fin := .service (underWayHbm 0x10).req }] }
     (s.softEnded (.service (underWayHbm 0x10).req)).isSome = true) := by decide +kernel
/-- A request for another module. -/
def distant : Msg := { request 64 1 9 with hdr := mkHdr 1 false 0 1 5 0 1 1 5 }
theorem witness_forward : (linked 2 0 (served (service distant))).reachable distant.dmod = true ∧
    (linked 2 0 (served (service distant))).toward distant.dmod = some 0 ∧ (linked 2 0 (served (service distant))).serviceBehind 0 distant = false ∧ (linked 2 0 (served (service distant))).forwardYields distant 0 = false ∧
    (let s := linked 2 1 (onItsWay (fromAfar 0)); (fromAfar 0).smod ≠ s.fab.cfg.modid.toNat ∧ s.enters (fromAfar 0) = true ∧
      s.yields (fromAfar 0) = false ∧ s.behind 0 (fromAfar 0) = false ∧ s.ownCore (fromAfar 0).dmod (fromAfar 0).dep = some 0 ∧
      s.closed 0 = false ∧ (s.core 0).mu.reqFree 0 = true) ∧
    (let s := linked 2 1 (onItsWay (fromAfar 64)); s.ownCore 0 64 = none ∧ s.sourcePart (fromAfar 64) = none ∧ s.enters (fromAfar 64) = true) ∧
    (let s := (linked 2 1 (onItsWay (fromAfar 0))).modMu 0 (fun u => { u with rqDepth := 0 }); (s.core 0).mu.reqFree 0 = false ∧
      s.enters (fromAfar 0) = true) ∧
    (let s := linked 2 1 (onItsWay answerAfar); s.carries answerAfar = true ∧ s.behind 0 answerAfar = false ∧ s.sourcePart answerAfar = none ∧
      s.toward answerAfar.dmod = some 0) ∧
    (let s := (onItsWay (request 64 1 7)).modAct 248 (fun a => { a with budget := 0xFFFFF }); (s.act 248).budget = 0xFFFFF ∧ s.queued 248 = false ∧
      s.enters (request 64 1 7) = true) ∧ (served (service distant)).reachable distant.dmod = false ∧
    distant.smod = (linked 2 0 (served (service distant))).fab.cfg.modid.toNat := by decide +kernel

/-! ## The fabric and the links -/

/-- A flit of an epoch and number with one message slot. -/
def aFlit (epoch seq ft : Nat) : Flit :=
  { epoch := BitVec.ofNat 8 epoch, seq := BitVec.ofNat 12 seq, ackSeq := 0, av := false, rnak := false, ft := BitVec.ofNat 2 ft, ck := 0, ccnt := 0,
    slots := [msgSlot distant, { hdr := 0, payload := 0 }, { hdr := 0, payload := 0 }] }
/-- Port 0 in use and up at 50 us, changed. -/
def porting (f : Port → Port) : State :=
  let s := linked 2 0 (served (service distant))
  ({ s with clk := { s.clk with tb := 50000 } }).modPort 0 f
theorem witness_flits : (porting id).fab.ports[(0 : PortId)].inUse = true ∧ (porting id).fab.ports[(0 : PortId)].up = true ∧
    (porting id).fab.ports[(0 : PortId)].epoch = (aFlit 0 1 0).epoch ∧ (porting id).fab.ports[(0 : PortId)].rxValid = false ∧
    (porting (fun q => { q with noticeOwed := true })).fab.ports[(0 : PortId)].noticeOwed = true ∧
    (porting (fun q => { q with noticeOwed := false })).fab.ports[(0 : PortId)].replaying = [] ∧
    3 ≤ (porting id).fab.ports[(0 : PortId)].credits ∧ (porting id).fab.ports[(0 : PortId)].lastAck + 2000 ≤ (porting id).ns ∧
    (porting (fun q => { q with tx := [msgSlot distant] })).fab.ports[(0 : PortId)].tx ≠ [] ∧
    (porting (fun q => { q with replaying := [aFlit 0 4 0] })).fab.ports[(0 : PortId)].replaying = [aFlit 0 4 0] ∧
    (porting (fun q => { q with unacked := [distant], buffer := [aFlit 0 0 0] })).fromDie distant = true ∧
    slotType (msgSlot distant) = 1 ∧ slotMsg (msgSlot distant) = { distant with gen := 0 } ∧
    (porting (fun q => { q with rxValid := true, rxSeq := 9 })).fab.ports[(0 : PortId)].rxSeq ≠ (aFlit 0 1 0).seq ∧
    (porting id).fab.ports[(0 : PortId)].rnakOwed = false ∧ (porting id).fab.ports[(0 : PortId)].buffer.length < 256 ∧
    0 < (porting (fun q => { q with creditOwed := 300 })).fab.ports[(0 : PortId)].creditOwed ∧
    (let q := (porting (fun q => { q with reqOwed := q.reqOwed.set 1 300 })).fab.ports[(0 : PortId)]
     q.creditOwed = 0 ∧ (∀ d : Fin 4, d < 1 → q.reqOwed[d] = 0) ∧ 0 < q.reqOwed[(1 : Fin 4)]) ∧
    (let q := (porting (fun q => { q with tx := [msgSlot distant] })).fab.ports[(0 : PortId)]
     q.creditOwed = 0 ∧ (∀ d : Fin 4, q.reqOwed[d] = 0) ∧ q.tx.take (min 3 q.credits) ≠ []) ∧
    (porting id).fab.ports[(0 : PortId)].tx.take 3 = [] ∧
    256 ≤ (porting (fun q => { q with buffer := List.replicate 256 (aFlit 0 0 0) })).fab.ports[(0 : PortId)].buffer.length := by decide +kernel
theorem witness_flit_bytes : (readFlit (flitBytes (aFlit 0 1 0))).epoch = 0 ∧ (readFlit (flitBytes (aFlit 0 1 0))).ft = 0 ∧
    (readFlit (flitBytes (aFlit 0 1 0))).av = false ∧ (readFlit (flitBytes (aFlit 0 1 0))).ck = 0 ∧ (readFlit (flitBytes (aFlit 0 1 0))).rnak = false ∧
    (readFlit (flitBytes (aFlit 3 1 1))).ft = 1 ∧ (readFlit (flitBytes (aFlit 3 1 1))).epoch = 3 := by decide +kernel
theorem witness_links : (porting id).fab.ports[(0 : PortId)].lastValid + 10000 ≤ (porting id).ns ∧
    (porting (fun q => { q with buffer := [aFlit 0 0 0], replays := 3 })).fab.ports[(0 : PortId)].buffer ≠ [] ∧
    (porting (fun q => { q with fresh := false, rxValid := true })).fab.ports[(0 : PortId)].rxValid = true ∧
    (porting (fun q => { q with up := false })).fab.ports[(0 : PortId)].up = false ∧ (porting id).clk.refLost = false ∧
    (porting id).sec.tap.toNat < 3 ∧ (porting id).fab.d2dTraining = false := by decide +kernel
/-- The die-to-die link in training, a command waiting for it. -/
def training (waits : Bool) : State :=
  let s := porting id
  { s with fab := { s.fab with d2dTraining := true }, asz := { s.asz with busy := waits, crossing := if waits then some (5, 1, .host) else none }
           host := { s.host with linkUp := true } }
/-- A flit towards the compute die that has been replayed three times; one that has once. -/
def replayed : State := let s := porting id; { s with fab := { s.fab with d2dReplays := [(false, 4, 1), (true, 5, 3)] } }
/-- Partition 0 asked to stop while the link trains. -/
def stopWaits : State := (training false).modPart 0 (fun q => { q with stopAsked := true })
theorem witness_d2d : replayed.fab.d2dTraining = false ∧ replayed.fab.d2dReplays.find? (fun e => e.1 == true && e.2.1 == 5) = some (true, 5, 3) ∧
    replayed.fab.d2dReplays.find? (fun e => e.1 == false && e.2.1 == 4) = some (false, 4, 1) ∧
    replayed.fab.d2dReplays.find? (fun e => e.1 == true && e.2.1 == 6) = none ∧
    (∀ p, ((training false).part p).stopAsked = false ∧ ((training false).part p).rstAsked = false) ∧
    (∀ p, (stopWaits.part p).rstAsked = false ∧ ((stopWaits.part p).stopAsked = true ↔ p = 0)) ∧ (stopWaits.part 0).live = true ∧
    (training true).asz.crossing = some (5, 1, .host) ∧
    (training true).soft = [] ∧ (∀ p, ((training true).part p).armed = none) ∧ (training false).asz.crossing = none ∧
    (training false).fab.d2dTraining = true ∧ (training false).reaches .host = true ∧ (training false).asz.busy = false := by decide +kernel
/-- Port 0 with one received slot. -/
def received (role : Nat) (x : FabSlot) : State :=
  let s := (linked role 0 (moving (service distant))).modPort 0 (fun q => { q with rx := [x] })
  (s.modAct 240 (fun a => { a with budget := 0xFFFFF })).modPart 0 (fun q => { q with
    roots := q.roots.set 3 { q.roots[(3 : Fin 16)] with spanWaiting := true } })
/-- An owner-table line slot: a write (2) or a read (3) of line 16 of core 0's slice. -/
def lineSlot (t : Nat) : FabSlot := mkSlot t 2 0 1 (1 * 2 ^ 48 + 1024) 0xBEEF
/-- A switched module with one received slot of a stream, whose next number is 5. -/
def switched (e2e : Nat) : State :=
  let s := (linked 2 1 (moving (service distant))).modPort 0 (fun q => { q with rx := [numbered (msgSlot (fromAfar 9)) (BitVec.ofNat 16 e2e)] })
  { s with fab := { s.fab with e2e := [(e2eKey 1 0 0 0, 5)] } }
theorem witness_switched : (switched 5).fab.cfg.flow ≠ 0 ∧ (switched 5).fab.resync.contains (e2eKey 1 0 0 0) = false ∧
    (switched 5).fab.e2e.lookup (e2eKey 1 0 0 0) = some 5 ∧
    [5, 261, 262].all (fun e =>
      let x := numbered (msgSlot (fromAfar 9)) (BitVec.ofNat 16 e)
      slotType x == 1 && (slotMsg x).dmod == 0 && (slotMsg x).kind == 1 && (slotMsg x).smod == 1 && (switched e).fab.ports[(0 : PortId)].rx == [x] &&
      e2eKey (slotMsg x).smod (slotMsg x).dmod (slotCh x) (slotCls x) == e2eKey 1 0 0 0 &&
      (BitVec.ofNat 16 (slotE2e x) - 5#16).toNat == e - 5) = true ∧
    (switched 5).nextSlot 0 1 = some (0, numbered (msgSlot (fromAfar 9)) 5) ∧ epCore (fromAfar 9).dep = some 9 ∧ (switched 5).partOf 9 = none ∧
    (switched 5).toward 1 = some 0 ∧ (switched 5).mgrFromFab[(0 : Fin 4)] < 256 ∧
    256 ≤ { switched 5 with mgrFromFab := .replicate 4 256 }.mgrFromFab[(0 : Fin 4)] ∧
    (let x := msgSlot (fromAfar 1); let s := (received 2 x).modPort 0 (fun q => { q with barred := [x] })
     s.fab.cfg.flow = 0 ∧ s.nextSlot 0 1 = some (0, x) ∧ s.fab.ports[(0 : PortId)].barred.contains x = true ∧
     (slotMsg x).dmod = s.fab.cfg.modid.toNat ∧ (slotMsg x).smod ≠ s.fab.cfg.modid.toNat ∧ s.toward (slotMsg x).smod = some 0) := by decide +kernel
theorem witness_slots : (received 2 (msgSlot distant)).nextSlot 0 1 = some (0, msgSlot distant) ∧
    (received 2 (lineSlot 2)).nextSlot 0 2 = some (0, lineSlot 2) ∧ (received 2 (lineSlot 2)).ownsLine 1 1024 = true ∧
    (received 2 (lineSlot 2)).partAt 1024 = some 0 ∧ ((received 2 (lineSlot 2)).act 240).budget = 0xFFFFF ∧
    (received 1 (barSlot 4 0 0 3 false 0)).nextSlot 0 4 = some (0, barSlot 4 0 0 3 false 0) ∧
    (received 2 (msgSlot distant)).toward (slotMsg (msgSlot distant)).dmod = some 0 ∧
    (received 1 (barSlot 4 0 0 3 false 0)).fab.d2dTraining = false ∧ (received 2 (barSlot 5 0 0 3 true 0)).nextSlot 0 5 = some (0, barSlot 5 0 0 3 true 0) ∧
    ((received 2 (barSlot 5 0 0 3 true 0)).part 0).live = true ∧ barId (barSlot 5 0 0 3 true 0) = 3 ∧ ((received 2 (barSlot 5 0 0 3 true 0)).part 0).roots[(3 : Fin 16)].spanWaiting = true ∧
    (received 2 (mkSlot 7 3 0 0 0 0)).nextSlot 0 7 = some (0, mkSlot 7 3 0 0 0 0) := by decide +kernel
/-- A reply of module 1 to a request of core 1 that this module keeps. -/
def replied : Msg := { msg 2 1 with hdr := mkHdr 2 false 0 0 1 1 5 0 5 }
/-- The owner-table line of an HBM line, of this module or of none. -/
def hbmSlot (ver : Nat) : FabSlot := mkSlot 2 2 0 ver (ver * 2 ^ 48 + hbmBase) 0xBEEF
theorem witness_slot_messages : (received 2 (msgSlot (fromAfar 9))).nextSlot 0 1 = some (0, msgSlot (fromAfar 9)) ∧
    epCore (slotMsg (msgSlot (fromAfar 9))).dep = some 9 ∧ (received 2 (msgSlot (fromAfar 9))).partOf 9 = none ∧
    (received 2 (msgSlot (fromAfar 9))).fab.cfg.flow = 0 ∧ (slotMsg (msgSlot (fromAfar 9))).dmod = 0 ∧ (slotMsg (msgSlot (fromAfar 9))).kind = 1 ∧
    epCore (slotMsg (msgSlot (fromAfar 1))).dep = some 1 ∧ (received 2 (msgSlot (fromAfar 1))).partOf 1 = some 0 ∧
    (received 2 (msgSlot (fromAfar 1))).asz.waiting = [] ∧ (received 2 (msgSlot (fromAfar 1))).asz.passed = [] ∧
    epCore (slotMsg (msgSlot (fromAfar 64))).dep = none ∧
    (let s := received 2 (msgSlot replied); let t := { s with fab := { s.fab with asked := [{ req := distant, freed := false }] } }
     (slotMsg (msgSlot replied)).kind = 2 ∧ t.askedFor (slotMsg (msgSlot replied)) = some { req := distant, freed := false }) := by decide +kernel
theorem witness_slot_lines : (received 2 (lineSlot 2)).handlerWantsLine 1024 = false ∧
    { received 2 (lineSlot 2) with clk := { State.reset.clk with running := false } }.clk.running = false ∧ (received 2 (lineSlot 2)).clk.running = true ∧ (cycled (received 2 (lineSlot 2))).writeFree 1024 = true ∧ (cycled (received 2 (lineSlot 3))).readFree 1024 = true ∧
    (received 2 (lineSlot 3)).poisoned 1024 = false ∧ ((received 2 (lineSlot 3)).modAct 248 (fun a => a) |>.act 248).budget = 0xFFFFF ∧
    (received 2 (lineSlot 2)).liveOf 0 = some 0 ∧ ((received 2 (lineSlot 2)).modPart 0 (fun q => { q with pstate := .stopped })).liveOf 0 = none ∧
    (let s := received 2 (hbmSlot 1)
     let t := { s with asz := { s.asz with owners := [[BitVec.ofNat 128 (7 + 2 ^ 32 + 10 * 2 ^ 64), 0, 0, 0, BitVec.ofNat 128 (10 * 2 ^ 40 + hbmBase * 2 ^ 64)]] } }
     t.ownsLine (slotVer (hbmSlot 1)) hbmBase = true ∧ t.writeFree hbmBase = true ∧ t.partAt hbmBase = some 0) ∧
    (received 2 (hbmSlot 9)).ownsLine (slotVer (hbmSlot 9)) hbmBase = false := by decide +kernel
theorem witness_barrier_group : (let s := received 1 (barSlot 4 0 0 3 false 0); let t := { s with fab := { s.fab with cfg := { s.fab.cfg with
      spans := [BitVec.ofNat 128 (3 * 2 ^ 8 + 2 * 2 ^ 32)] } } }
    (t.spanGroup (barPart (barSlot 4 0 0 3 false 0)) (barId (barSlot 4 0 0 3 false 0))).isSome = true ∧ t.fab.spanCount = []) := by decide +kernel
/-- Stamps of an exchange whose offset is 60. -/
def stamps : TimeStamps := { t1 := 100, t2 := 300, t3 := 320, t4 := 400, corr := 0 }
/-- The manager module is asked by module 1, or has answered this module. -/
def asking (back : Bool) : FabSlot := timeSlot 1000 900 0 7 (if back then 0 else 1) back
theorem witness_time : (received 2 (mkSlot 6 3 0 0 0 0)).fab.tbAligned = false ∧ (received 2 (mkSlot 6 3 0 0 0 0)).fab.cfg.role = 2 ∧
    (received 1 (asking false)).nextSlot 0 6 = some (0, asking false) ∧
    slotBack (asking false) = false ∧ slotAsker (asking false) = 1 ∧ (received 1 (asking false)).toward 1 = some 0 ∧ (received 1 (asking false)).fab.cfg.role = 1 ∧
    (received 2 (asking true)).nextSlot 0 6 = some (0, asking true) ∧ slotBack (asking true) = true ∧
    slotAsker (asking true) = (received 2 (asking true)).fab.cfg.modid.toNat ∧ (received 2 (asking true)).fab.cfg.flow = 0 ∧ State.reset.clk.tb.toNat % 1024 = 0 ∧
    (let s := { received 2 (asking true) with clk := { State.reset.clk with tb := 999999, adj := 0 } }
     (s.clk.tb + 1).toNat % 1000000 = 0 ∧ s.toward s.fab.cfg.mgrid.toNat = some 0 ∧ s.clk.adj = 0 ∧
     (∀ p, ({ s with clk := s.clk.tick, justSet := [] } : State).startRelease p = { s with clk := s.clk.tick, justSet := [] })) ∧
    (let c := { State.reset.clk with adj := BitVec.ofInt 32 (-5), sinceSlew := 999 }; c.adj.toInt < 0 ∧ 999 ≤ c.sinceSlew) ∧
    (let c := { State.reset.clk with adj := 5, sinceSlew := 1000 }; 0 < c.adj.toInt ∧ 1000 ≤ c.sinceSlew) := by decide +kernel

/-! ## Registers, sessions and windows -/

/-- Ready, two records stored, vector 8 unmasked and 9 pending. -/
def hosted : State :=
  let s := { one with
    sec := { one.sec with phase := .ready, ready := true, sessionKeys := true }
    asz := { one.asz with busy := false } }
  let s := (s.event 0x101 5 none none [1]).event 0x402 6 none none [2]
  { s with host := { s.host with masked := setBit s.host.masked 8 false, msixPend := setBit s.host.msixPend 9 true, act := 3 } }
/-- An image that keeps a manifest of partition 0 with slot 1 in core 1, three lines to a half. -/
def slotImage : Image :=
  { len := 8192, bytes := [(0x22, 1), (0x40, 1), (0x45, 1), (0xC20, 1), (0xC22, 1), (0xC24, 3), (0xC29, 0x20), (0xC30, 20), (0xC38, 16)] }
/-- An open session 7 of function 2 with a ring of four, its slot 1 of partition 0 in core 1, two lines to a half. -/
def inSession : State :=
  let sl : InputSlot := { InputSlot.none with valid := true, core := 1, base := 0x2000, h := 3, first := 20, spacing := 16, readyFor := 1 }
  let x : Session := { Session.reset with valid := true, func := 2, act := 3, slot := 1, nring := 4, inLn := 2, cpl := 0x8000 }
  let s := hosted.modPart 0 (fun q => { q with slots := q.slots.set 1 sl })
  { s with
    host := { s.host with sessions := [(7, x)], bells := [{ order := 0, session := 7, lines := 2, tag := 9, seq := 0, tb := 1 }] }
    asz := { s.asz with acts := [(3, { Activity.reset with budget := 0xFFFFF })], kept := [(0, slotImage)] } }
/-- Its doorbell under placement. -/
def placing : State := inSession.modSlot 0 1 (fun x => { x with placing := some 7 })
/-- The windows open on partition 0 and region 0 of core 1 over the whole slice, activity 3 with 10 units. -/
def windowed : State :=
  let s := hosted.modCfg 1 (fun g => { g with region := g.region.set 0 (BitVec.ofNat 64 (2 ^ 63 + 448)) })
  { s with
    host := { s.host with spEn := 1, hbmEn := 1 }
    clk := { s.clk with tb := 5000 }
    asz := { s.asz with acts := [(3, { Activity.reset with budget := 10, credit := 10 })] } }

theorem witness_host_registers : hosted.hostUp = true ∧ (0x30104#26).toNat = 0x30104 ∧ bit hosted.host.msixPend 9 = true ∧
    bit hosted.host.msixPend 8 = false ∧ (0x800018#26).toNat = 0x800018 ∧ (0x100010#26).toNat = 0x100000 + 16 * 1 ∧
    onDoorbell 0 0x10008 = false ∧ 0x1000C % 8 ≠ 0 := by decide +kernel
theorem witness_session_open : inSession.hostUp = true ∧ (inSession.session 9).valid = false ∧ bit (0x8000000000000000#64) 63 = true ∧
    (inSession.session 7).valid = true ∧ bit (0#64) 63 = false ∧ memWf inSession.mem = true := by decide +kernel
theorem witness_doorbell : let x := inSession.session 7
    x.valid = true ∧ 2 = x.func.toNat ∧ fld (2#64) 23 0 = 2 ∧ 2 ≤ x.inLn.toNat ∧ x.pend ≠ x.nring ∧ 2 + 1 ≤ inSession.halfLines x ∧
    x.inLn.toNat < fld (3#64) 23 0 ∧ (inSession.act 3).budget = 0xFFFFF ∧ inSession.queued 3 = false ∧ x.act = 3 ∧
    (let s := inSession.modAct 3 (fun a => { a with budget := 0 }); (s.act 3).budget = 0) ∧
    (let s := inSession.modAct 3 (fun a => { a with budget := 5, credit := 0 })
     (s.act 3).budget ≠ 0 ∧ (s.act 3).budget ≠ 0xFFFFF ∧ (s.act 3).credit = 0) ∧
    x.pend = 0 ∧ ¬ (x.inLn.toNat < 2 ∨ inSession.halfLines x < 2 + 1) := by decide +kernel
theorem witness_slot_empty : let s := inSession.modSlot 0 1 (fun x => { x with readyFor := 0 })
    (s.part 0).live = true ∧ (s.part 0).slots[(1 : Fin 32)].valid = true ∧
    (s.part 0).slots[(1 : Fin 32)].readyFor ≤ (s.part 0).slots[(1 : Fin 32)].k ∧
    s.fab.d2dTraining = false ∧ s.replaying 0 = false ∧ s.writeFree ((s.part 0).slots[(1 : Fin 32)].lineAt 0 0) = false ∧
    (cycled s).writeFree ((s.part 0).slots[(1 : Fin 32)].lineAt 0 0) = true ∧
    sliceOwner ((s.part 0).slots[(1 : Fin 32)].lineAt 0 0) = some 1 ∧ (s.liveOf 1).isSome = true ∧
    (let r := { s with rr := { s.rr with mode := 2, rrCnt := 1 } }; r.replaying 0 = true) := by decide +kernel
theorem witness_placement : inSession.oldestBell 0 1 = some { order := 0, session := 7, lines := 2, tag := 9, seq := 0, tb := 1 } ∧
    inSession.halfOpen 0 (inSession.part 0).slots[(1 : Fin 32)] = true ∧ (inSession.part 0).slots[(1 : Fin 32)].placing = none ∧
    (inSession.part 0).slots[(1 : Fin 32)].filled = false ∧ (inSession.act 3).budget = 0xFFFFF ∧
    placing.halfOpen 0 (placing.part 0).slots[(1 : Fin 32)] = true ∧
    placing.host.bells.find? (fun b => (placing.part 0).slots[(1 : Fin 32)].placing == some b.key) =
      some { order := 0, session := 7, lines := 2, tag := 9, seq := 0, tb := 1 } ∧
    (placing.part 0).slots[(1 : Fin 32)].fetchOwed = 0 ∧ (inSession.session 7).act = 3 ∧ inSession.queued 3 = false ∧
    (let a := (inSession.modAct 3 (fun a => { a with budget := 5, credit := 2 })).act 3; a.budget ≠ 0 ∧ a.budget ≠ 0xFFFFF ∧ 2 ≤ a.credit) ∧
    (let a := (inSession.modAct 3 (fun a => { a with budget := 5, credit := 1 })).act 3; a.budget ≠ 0 ∧ a.budget ≠ 0xFFFFF ∧ a.credit < 2) ∧
    ((inSession.modAct 3 (fun a => { a with budget := 0 })).act 3).budget = 0 ∧
    placing.queued 3 = false ∧ placing.soft = [] ∧ ((placementWrites (placing.part 0).slots[(1 : Fin 32)] { order := 0, session := 7, lines := 2, tag := 9, seq := 0, tb := 1 } [5, 6]).all
      (fun w => w.addrs.any placing.liveAt)) = true := by decide +kernel
theorem witness_placement_suppressed : let s := placing.modPart 0 (fun q => { q with icount := 13 })
    (s.part 0).slots[(1 : Fin 32)].placing.isSome = true ∧ (s.part 0).slots[(1 : Fin 32)].dueCount < (s.part 0).count + 8 := by decide +kernel
theorem witness_windows : memWf windowed.mem = true ∧ windowed.mgrUp = true ∧ windowed.host.linkUp = true ∧ windowed.host.d3hot = false ∧
    windowed.windowOk (sliceBase 1 + 0x3F) 2 false = true ∧ windowed.windowOk (sliceBase 1 + 0x3F) 2 true = true ∧
    windowed.windowOk (sliceBase 0) 1 false = false ∧ windowed.windowOk (sliceBase 0) 1 true = false ∧
    windowed.windowOk hbmBase 1 false = true ∧ (spanLines (sliceBase 1 + 0x3F) 2).2 = 2 ∧
    windowed.host.act = 3 ∧ (windowed.act 3).budget ≠ 0 ∧ windowed.queued 3 = false ∧ 2 ≤ (windowed.act 3).credit ∧ windowed.fab.d2dTraining = false ∧
    windowed.poisoned hbmBase = false ∧ windowed.liveAt (sliceBase 1) = true ∧ windowed.soft = [] := by decide +kernel
/-- The same, partition 0 stopped. -/
def windowedStill : State := windowed.modPart 0 (fun q => { q with pstate := .stopped })
theorem witness_window_write : windowedStill.clk.running = true ∧ { windowedStill with clk := { windowedStill.clk with running := false } }.clk.running = false ∧
    (spanLines (sliceBase 1 + 0x3F) 2).2 ≤ 32 ∧ windowed.shutSpan (sliceBase 0) 1 = false ∧
    windowedStill.windowOk (sliceBase 1 + 0x3F) 2 true = true ∧ windowedStill.softUsed = [] ∧ windowedStill.wbuf = [] ∧
    ((List.range 2).all (fun i => !windowedStill.liveAt (sliceBase 1 + 64 * i) && !windowedStill.poisoned (sliceBase 1 + 64 * i) &&
      windowedStill.lineNow (sliceBase 1 + 64 * i) == windowedStill.line (sliceBase 1 + 64 * i))) = true := by decide +kernel
theorem witness_weir_period : windowed.clk.tb.toNat / 1000 ≠ windowed.asz.period ∧ windowed.asz.waiting = [] ∧
    2 ≤ (windowed.act 3).budget.toNat ∧ (windowed.act 3).budget ≠ 0xFFFFF ∧
    (let j : SoftJob := { id := 5, todo := [.read (sliceBase 1)], owed := 12, got := [], bad := false, errs := [], source := 4, core := 0xFF, fin := .host (sliceBase 1) 64 }
     windowed.jobOpen j = true ∧ ((SoftLine.read (sliceBase 1)).addrs.any windowed.liveAt) = true) := by decide +kernel

/-! ## Assize, power and clock -/

/-- A signature whose r and s are the digest itself: the point that the check finds is then the base point plus the key. -/
def sigBytes (at_ e : Nat) : List (Nat × Byte) :=
  ((beBytes 48 e ++ beBytes 48 e).zipIdx.map (fun x => (at_ + x.2, x.1))).filter (fun x => x.2 ≠ 0)
/-- The digests of the two images below. -/
def loadDigest : BitVec 384 := 0xc9998df20a5f90bedeea33084a5bd59fa2638cd083448c248407cecbb036ac58e9eb1e8dfbafe35cae374e00f28c14e3#384
def armDigest : BitVec 384 := 0x2cb04d7aae81e214ba04c85bf4847639cf11a3857de6c4516280a8da4daa0dcf091289122148d9ca04362bd2af64b5bb#384
/-- A load image that leaves partition 0 empty: PARTS, CLOCK with 500 to 2,000 MHz, WEIR with a budget of 4 for activity 0, and FABRIC. -/
def loadImage : Image :=
  { len := 4096, bytes :=
    [(0x0, 0x41), (0x1, 0x53), (0x2, 0x49), (0x3, 0x5A), (0x4, 0x1), (0x6, 0x1), (0x8, 0x64), (0x9, 0x56), (0xA, 0xA1), (0xC, 0xA1),
     (0xE, 0x64), (0xF, 0x56), (0x11, 0x10), (0x20, 0x1), (0x22, 0x4), (0x40, 0x2), (0x42, 0xFF), (0x44, 0x80), (0x4C, 0x80), (0x50, 0x5),
     (0x52, 0xFF), (0x55, 0x1), (0x5C, 0x40), (0x60, 0x6), (0x62, 0xFF), (0x64, 0x40), (0x65, 0x1), (0x6C, 0x8), (0x6D, 0x8), (0x70, 0x7),
     (0x72, 0xFF), (0x74, 0x80), (0x75, 0x9), (0x7C, 0x40), (0x100, 0xF4), (0x101, 0x1), (0x102, 0xD0), (0x103, 0x7), (0x148, 0x4),
     (0x986, 0x1)] ++ sigBytes 0xf80 loadDigest.toNat }
/-- The key that its signature verifies with: r and s are its digest, so that the point of the check is the key plus the base point. -/
def loadKey : BitVec 768 :=
  0x94ef1ba451d375e5eabbbcd2a882b0cd0f220bf6ac7be5f12eda0c68c92b16c276de46cc08f3aab544430194ccfc695556f1fc886046f91452c2a65f08997b74ef6d8590f8b9bcf29b0ebcce82da2fc811109089ea7b14a607c6601b754fcc22#768
/-- A transaction image of partition 0: id 3, no entry points, token 5, a new code region of one bundle for core 0, behind its first 64 KiB. -/
def armImage : Image :=
  { len := 4864, bytes :=
    [(0x0, 0x41), (0x1, 0x53), (0x2, 0x49), (0x3, 0x5A), (0x4, 0x1), (0x6, 0x2), (0x8, 0x64), (0x9, 0x56), (0xA, 0xA1), (0xC, 0xA1),
     (0xE, 0x64), (0xF, 0x56), (0x11, 0x13), (0x20, 0x1), (0x22, 0x3), (0x40, 0xA), (0x44, 0x80), (0x4C, 0x50), (0x50, 0x3), (0x55, 0x1),
     (0x5C, 0xF0), (0x5D, 0x10), (0x60, 0x4), (0x65, 0x12), (0x6C, 0x50), (0x80, 0x3), (0x88, 0x5), (0x100, 0xC0), (0x101, 0x1),
     (0x107, 0x80), (0x1B0, 0x40), (0x1D0, 0x20), (0x1D1, 0x20), (0x11DA, 0x1), (0x11E0, 0x40), (0x11EA, 0x1),
     (0x120A, 0x1)] ++ sigBytes 0x1280 armDigest.toNat }
/-- The key of its signature. -/
def armKey : BitVec 768 :=
  0x1c03c65b37c60d0c6856e4d688727ab0be6a97308bb88a4b015259b67067f8b982b5641da25de89527fe0baf29c9ca3d5ab3051eb76b3444dc1a9b15d6dd809ebc5512b2c2c8cce8b2f2768d69549439007b2cbdb8511112afaf410ade54ce47#768
/-- Ready for the host's commands, every partition empty. -/
def readyPart : State := { State.reset with
  sec := { State.reset.sec with phase := .ready, ready := true, sessionKeys := true, assizeKey := loadKey }
  asz := { State.reset.asz with busy := false } }
/-- Partition 0 stopped, its cores' flags set. -/
def stoppedPart : State := hosted.modPart 0 (fun q => { q with pstate := .stopped, icount := 9 })
/-- Partition 0 running with barrier 3 partition-wide on its cores. -/
def withScopes : State :=
  let s := { hosted with sec := { hosted.sec with assizeKey := armKey } }
  (s.modSyn 0 (fun y => { y with scope := 0x40 })).modSyn 1 (fun y => { y with scope := 0x40 })
/-- Its core 0 with a code region. -/
def withCode : State :=
  (withScopes.modCfg 0 (fun g => { g with codeLen := 0x10000, region := g.region.set 0 (BitVec.ofNat 64 (2 ^ 63 + 448)) })).modMu 0
    (fun u => { u with rqDepth := 32, rpDepth := 32 })
/-- Its transaction armed. -/
def armedPart : State := withScopes.modPart 0 (fun q => { q with armed := some { id := 3, epv := false, token := 5, img := armImage } })
/-- The same image being applied. -/
def applyingLoad : State := { readyPart with
  asz := { readyPart.asz with busy := true, applying := some { img := loadImage, req := .host } } }
/-- Partition 0 stopped, its release due. -/
def releasing : State := stoppedPart.modPart 0 (fun q => { q with release := some (0, 0) })

/-- An image without a signature. -/
def unsigned : Image := { loadImage with bytes := loadImage.bytes.filter (fun x => x.1 < 0xF80) }
/-- A change to 700 MHz kept while the set point is 1,000 MHz, another target kept beside it. -/
def changingClock (s : State) (shown set_ target : Nat) : State := { s with clk := { s.clk with
  shownMhz := BitVec.ofNat 12 shown, setMhz := set_, deferred := some 3000
  change := some { n := 20000, target := target, old := set_, settled := false, started := false, nextStep := 20000 } } }

theorem load_digest : imgDigest loadImage = loadDigest := by decide +kernel
theorem arm_digest : imgDigest armImage = armDigest := by decide +kernel
theorem load_signature : readyPart.sigOk loadImage = true := by unfold State.sigOk; rw [load_digest]; decide +kernel
theorem arm_signature : withCode.sigOk armImage = true := by unfold State.sigOk; rw [arm_digest]; decide +kernel
theorem witness_load : readyPart.firstPass loadImage true = (0, 0) := by unfold State.firstPass; rw [load_signature]; decide +kernel
theorem witness_load_refused : readyPart.reaches .host = true ∧ readyPart.asz.busy = false ∧
    readyPart.firstPass unsigned true = (2, 0) ∧ readyPart.firstPass armImage true = (1, 1) ∧ readyPart.asz.sigFail.toNat < 2 ∧
    2 ≤ ({ readyPart.asz with sigFail := 2 }).sigFail.toNat ∧
    readyPart.fab.d2dTraining = false ∧ imgAffects loadImage 0 = true ∧ imgAffects loadImage 1 = false := by decide +kernel
theorem witness_release_command : stoppedPart.reaches .host = true ∧ stoppedPart.anyInReset 1 = false ∧ (stoppedPart.part 0).pstate = .stopped ∧
    stoppedPart.replayRefused 1 = false ∧ hosted.anyInReset 1 = false ∧ (hosted.part 0).pstate ≠ .stopped ∧
    (hosted.modPart 0 (fun q => { q with inrst := true })).anyInReset 1 = true := by decide +kernel
theorem witness_arm : withCode.firstPass armImage false = (0, 0) := by unfold State.firstPass; rw [arm_signature]; decide +kernel
theorem witness_arm_image : withCode.reaches .host = true ∧ withCode.asz.busy = false ∧ withCode.fab.d2dTraining = false ∧
    allParts.find? (imgAffects armImage) = some 0 ∧ (imgPart armImage 10 0).isSome = true ∧ codeWrites armImage ≠ [] ∧ withCode.soft = [] ∧
    ((codeWrites armImage).all (fun w => w.addrs.any withCode.liveAt)) = true ∧ (armedPart.part 0).armed.isSome = true ∧ armedPart.committing 0 = false := by decide +kernel
theorem witness_apply : applyingLoad.asz.applying = some { img := loadImage, req := .host } ∧ releasing.releaseDue 0 = true ∧
    applyingLoad.fab.d2dTraining = false ∧ applyingLoad.clk.shownMhz = 0 ∧ releasing.replaying 0 = false ∧ memWf releasing.mem = true ∧
    (let s := changingClock applyingLoad 3000 3000 700
     let c := imgClock loadImage
     s.clk.shownMhz ≠ 0 ∧ max c.1 (min 3000 (effCeil s.pow.cls.toNat s.pow.calBad c.2.1 c.2.2)) ≠ s.clk.setMhz) ∧
    (let s := changingClock applyingLoad 1000 1000 700
     let c := imgClock loadImage
     s.clk.shownMhz ≠ 0 ∧ max c.1 (min 1000 (effCeil s.pow.cls.toNat s.pow.calBad c.2.1 c.2.2)) = s.clk.setMhz) ∧
    (let s := changingClock releasing 1000 1000 700
     s.releaseDue 0 = true ∧ s.releasePoint 0 ≠ s.clk.setMhz ∧ s.clk.deferred.getD 700 ≠ s.releasePoint 0 ∧
     (∀ e ∈ s.clk.endedAt, e + 50000 ≤ s.ns)) ∧
    (let s := changingClock releasing 1000 1000 700
     let t := { s with clk := { s.clk with deferred := some (s.releasePoint 0), endedAt := some 0 } }
     t.releaseDue 0 = true ∧ t.clk.deferred.getD 700 = t.releasePoint 0 ∧ t.ns < 0 + 50000) := by decide +kernel
theorem witness_second_pass : (imgDigest loadImage = imgDigest loadImage) ∧ imgDigest loadImage ≠ imgDigest armImage ∧
    ((hosted.modPart 0 (fun q => { q with pstate := .halted, haltTold := true })).part 0).live = true ∧
    bit (1#8) 0 = true := ⟨rfl, by rw [load_digest, arm_digest]; decide +kernel, by decide +kernel, by decide⟩

/-- A boot that finds nothing wrong on a part with the highest class strapped. -/
def goodBoot : BootFindings :=
  { straps := 2, tamperOpen := false, storageTripped := false, bankOk := (true, true), calOk := (true, true), align := none }
/-- The stage off, a firmware image waiting. -/
def turnedOff : State := { hosted with
  pow := { hosted.pow with state := .off }
  sec := { hosted.sec with fwPending := some { version := 7, verified := true, evaluation := false } } }
/-- Off by a cold command, 100 ms ago. -/
def coldWaiting : State := { hosted with
  pow := { hosted.pow with state := .coldWait, downAt := 5 }
  clk := { hosted.clk with tb := 100000005 } }
/-- Every input condition has lasted since time 0. -/
def outOfInput : State := { hosted with
  pow := { hosted.pow with underNs := some 0, overNs := some 0, ampNs := some 0, lowSince := some 0 }
  clk := { hosted.clk with tb := 50000 } }
/-- Latched off for 100 ms below 20 V. -/
def latchedOff : State := { outOfInput with
  pow := { outOfInput.pow with state := .latchedOff }
  clk := { outOfInput.clk with tb := 100000000 } }

theorem witness_boot : turnedOff.pow.state = .off ∧ coldWaiting.pow.state = .coldWait ∧ coldWaiting.pow.downAt + 100000000 ≤ coldWaiting.ns ∧
    State.reset.pow.state = .on ∧ State.reset.sec.phase = .cold ∧ State.reset.sec.bootFail = false ∧ State.reset.sec.alignFail = false ∧
    State.reset.sec.ready = false ∧ (4 : Fin 8) ≠ 5 ∧ 39000 ≤ coldWaiting.pow.input ∧ { coldWaiting.pow with input := 38000 }.input < 39000 ∧
    turnedOff.pow.cal.magicOk = true ∧ turnedOff.pow.cal.crcOk = true ∧ State.reset.pow.pwrGood = true ∧
    (let b := { State.reset with pow := { State.reset.pow with pwrGood := false, rails := (Vector.replicate 8 0).set 5 3 } }
     b.booting = true ∧ b.pow.align = none ∧ b.pow.rails[(4 : Fin 8)] = 0 ∧ b.pow.rails[(5 : Fin 8)] ≠ 0 ∧
     (b.modPow (fun u => { u with rails := u.rails.set 6 3 })).pow.rails[(6 : Fin 8)] ≠ 0 ∧
     { b.pow with align := some ⟨3, 1⟩ }.align.isSome = true) ∧
    (let turn := fun up : List (Fin 8) => ([5, 6, 7, 2, 3, 4, 1, 0] : List (Fin 8)).find? (fun r => !up.contains r)
     turn [] = some 5 ∧ turn [5] = some 6 ∧ turn [5, 6, 7, 2] = some 3) ∧
    turnedOff.sec.bootFail = false ∧ goodBoot.straps ≠ 3 ∧ goodBoot.bankOk.1 = true ∧
    (turnedOff.sec.storageTripped || (turnedOff.sec.storageArmed && goodBoot.storageTripped)) = false := by decide +kernel
theorem witness_input : outOfInput.mgrUp = true ∧ outOfInput.pow.underNs = some 0 ∧ 0 + 50000 ≤ outOfInput.ns ∧ outOfInput.pow.overNs = some 0 ∧
    outOfInput.pow.ampNs = some 0 ∧ latchedOff.pow.state = .latchedOff ∧ latchedOff.pow.lowSince = some 0 ∧ 0 + 100000000 ≤ latchedOff.ns ∧
    turnedOff.mgrUp = false ∧ hosted.pow.inLowBand = false := by decide +kernel

/-- A rise chosen for oscillator cycle 1,124. -/
def changing (settled started : Bool) (cycle : BitVec 64) : State := { hosted with clk := { hosted.clk with
  cycle := cycle
  change := some { n := 1124, target := 1010, old := 1000, settled := settled, started := started, nextStep := 1124 } } }
/-- A request kept since the last change ended at time 0. -/
def waitingChange : State := { hosted with clk := { hosted.clk with tb := 50000, deferred := some 1100, endedAt := some 0 } }
/-- An adjustment due, with input power above the envelope, at the floor. -/
def adjusting : State := { hosted with
  clk := { hosted.clk with tb := 3000000, shownMhz := 1000 }
  asz := { hosted.asz with floor := 1000, ceil := 2000 }
  pow := { hosted.pow with samples := 1, powerSum := 2500000000 } }
/-- A calibration set of zeros beside its magic number and the high bits of its CRC, 0xA4B68F86, cut into pieces. -/
def calWhole : List Byte := leBytes 4 0x4C414343 ++ 0 :: leBytes 3 0xA4B68F ++ List.replicate 4088 0
/-- Partition 0 stopped, all pieces of a set but the first arrived. -/
def piecesCome : State := { stoppedPart with sec := { stoppedPart.sec with
  calParts := (List.range 15).map (fun i => (256 * (i + 1), (calWhole.drop (256 * (i + 1))).take 256)) } }
/-- Sensors below and at a critical point. -/
def warmSensors (stage : BitVec 8) : SensorReadings := { compute := 101, hbm := .replicate 6 86, mgr := 40, stage := stage }

theorem witness_change : (∃ k, (changing false false 100).clk.change = some k ∧ k.started = false ∧ k.settled = false ∧
      (changing false false 100).clk.cycle.toNat + 1024 = k.n) ∧
    (∃ k, (changing true false 1124).clk.change = some k ∧ k.started = false ∧ k.settled = true ∧ k.n = (changing true false 1124).clk.cycle.toNat) ∧
    (∃ k, (changing true true 1124).clk.change = some k ∧ k.started = true ∧ k.nextStep = (changing true true 1124).clk.cycle.toNat) ∧
    (∃ k, (changing true true 50).clk.change = some k ∧ k.n ≠ (changing true true 50).clk.cycle.toNat ∧
      k.nextStep ≠ (changing true true 50).clk.cycle.toNat ∧ (changing true true 50).clk.cycle.toNat + 1024 ≠ k.n) ∧
    (changing true true 1124).clk.running = true :=
  ⟨⟨_, rfl, rfl, rfl, by decide +kernel⟩, ⟨_, rfl, rfl, rfl, by decide +kernel⟩, ⟨_, rfl, rfl, by decide +kernel⟩,
    ⟨_, rfl, by decide +kernel, by decide +kernel, by decide +kernel⟩, rfl⟩
theorem witness_kept_request : waitingChange.clk.deferred = some 1100 ∧ waitingChange.clk.endedAt = some 0 ∧ waitingChange.clk.change = none ∧
    0 + 50000 ≤ waitingChange.ns ∧ 1100 ≠ waitingChange.clk.setMhz := by decide +kernel
theorem witness_adjust : adjusting.pow.state = .on ∧ adjusting.clk.tb.toNat % 1000000 = 0 ∧ adjusting.pow.aboveClass < 99 ∧
    adjusting.clk.setMhz = adjusting.asz.floor ∧ adjusting.pow.adjAt ≠ some 3000000 ∧ { adjusting.pow with adjAt := some 3000000 }.adjAt = some adjusting.clk.tb.toNat ∧
    hosted.clk.shownMhz = 0 ∧ 99 ≤ { adjusting.pow with aboveClass := 99 }.aboveClass ∧ adjusting.fab.d2dTraining = false ∧
    classEnvelope adjusting.pow.cls.toNat * adjusting.pow.mean.2 < adjusting.pow.mean.1 ∧
    adjusting.envelope.1 * adjusting.pow.mean.2 < adjusting.pow.mean.1 * adjusting.envelope.2 := by decide +kernel
theorem witness_sensors : hosted.mgrUp = true ∧
    ((sensorList (warmSensors 124)).zip criticalPoints).all (fun e => decide (e.1 < e.2)) = true ∧
    ((sensorList (warmSensors 125)).zip criticalPoints).findIdx? (fun e => decide (e.2 ≤ e.1)) = some 8 ∧
    sensorReach (warmSensors 124) throttlePoints 0 = true := by decide +kernel
/-- The CRC's remainder byte by byte, each computed before the next. -/
def crcStrict : List Byte → Nat → Nat
  | [], c => c
  | b :: l, 0 => crcStrict l (crcByte 0 b)
  | b :: l, n + 1 => crcStrict l (crcByte (n + 1) b)
theorem crcStrict_eq (l : List Byte) (c : Nat) : crcStrict l c = l.foldl crcByte c := by
  induction l generalizing c with
  | nil => rfl
  | cons b l ih => cases c <;> exact ih _
theorem crc_zeros : crcStrict (List.replicate 4088 0) 0xFFFFFFFF = 0x5B497079 := by decide +kernel
theorem witness_calibration : (calOf calWhole).magicOk = true ∧ (calOf calWhole).crcOk = true := by
  have hc : crc32 (calWhole.drop 8) = 0xA4B68F86 := by
    rw [crc32, show calWhole.drop 8 = List.replicate 4088 0 from rfl, ← crcStrict_eq, crc_zeros]; decide
  unfold calOf; rw [hc]; decide +kernel
theorem witness_calibration_pieces : piecesCome.mgrUp = true ∧ piecesCome.secured true = true ∧ piecesCome.sec.lcs = 2 ∧ piecesCome.sec.aik = true ∧
    (∀ p, (piecesCome.part p).pstate ≠ .running) ∧ stoppedPart.sec.calParts = [] ∧ (calWhole.take 256).length = 256 ∧
    (∀ i < 15, piecesCome.sec.calParts.lookup (256 * (i + 1)) = some ((calWhole.drop (256 * (i + 1))).take 256)) := by decide +kernel
theorem witness_clock_events : hosted.clk.running = true ∧ (1004#10).toNat ≤ 1004 ∧ hosted.sec.phase = .ready ∧ hosted.pow.state = .on ∧
    hosted.clk.refLost = false ∧ hosted.secured true = true ∧ hosted.sec.lcs = 2 ∧ hosted.sec.aik = true ∧
    hosted.pow.thermCrit = false ∧ CalSet.factory.magicOk = true ∧ CalSet.factory.crcOk = true ∧
    { CalSet.factory with magic := 0 }.magicOk = false ∧ { hosted.clk with refLost := true }.refLost = true ∧
    (∀ p, (stoppedPart.part p).pstate ≠ .running) := by decide +kernel

/-! ## Records, resets, life cycle and management -/

/-- Recording selected with one band, two records staged; a durable occurrence of partition 0 waiting; an error counted. -/
def recordingPart : State :=
  let s := stoppedPart.modCfg 5 (fun g => { g with ce := 3, lastCe := 1 })
  { s with
    rr := { s.rr with rrCnt := 1, rrBase := 60, mode := 1, staged := [[1, 2], [3]] }
    ev := { s.ev with undurable := [{ detected := 0, sev := 5, part := some 0 }] }
    clk := { s.clk with tb := 1000000 } }
/-- The same with no room left in the region. -/
def regionFull : State := { recordingPart with rr := { recordingPart.rr with rrCnt := 0 } }

theorem witness_evr_read : hosted.mgrUp = true ∧ hosted.sec.sessionKeys = true ∧ hosted.sec.bootFail = false := by decide +kernel
theorem witness_records : recordingPart.reaches .host = true ∧ recordingPart.reaches .mctp = true ∧ hosted.reaches .host = true ∧ recordingPart.rrBusy 0 = false ∧ recordingPart.rr.rrCnt ≠ 0 ∧ hosted.rrBusy 0 = true ∧
    recordingPart.rr.staged = [[1, 2], [3]] ∧ recordingPart.rr.bytes.toNat + 2 ≤ recordingPart.rr.rrCnt.toNat * recordingPart.grade.bandBytes ∧
    regionFull.rr.rrCnt.toNat * regionFull.grade.bandBytes < regionFull.rr.bytes.toNat + 2 ∧
    recordingPart.ev.undurable = [{ detected := 0, sev := 5, part := some 0 }] ∧ 0 + 10000 ≤ recordingPart.ns ∧
    (∀ p, (recordingPart.part p).rstAsked = false) ∧ recordingPart.clk.tb.toNat % 1000000 = 0 ∧
    increase (recordingPart.core 5).cfg.ce (recordingPart.core 5).cfg.lastCe ≠ 0 ∧ recordingPart.secured true = true := by decide +kernel

/-- Partition 0 in its reset; the whole part in a warm reset. -/
def inReset : State := hosted.modPart 0 (fun q => { q with inrst := true })
def inWarm : State := { hosted with sec := { hosted.sec with phase := .warm, ready := false } }
/-- Hosted, in a life-cycle state with or without the AIK. -/
def inState (lcs : BitVec 2) (aik : Bool) : State := { hosted with sec := { hosted.sec with lcs := lcs, aik := aik, reprov := 2 } }

theorem witness_resets : hosted.hostUp = true ∧ hosted.sec.phase = .ready ∧ hosted.pow.state = .on ∧ (0#32) ≠ 0xA5A55A5A ∧
    hosted.secured true = true ∧ (hosted.part 0).inrst = false ∧ (hosted.part 0).pstate ≠ .empty ∧ hosted.haltDurable 0 = true ∧
    (inReset.part 0).inrst = true ∧ inWarm.sec.phase = .warm ∧ inWarm.sec.alignFail = false := by decide +kernel
theorem witness_life_cycle : (∀ l a, (inState l a).asz.busy = false ∧ (inState l a).secured true = true ∧ (inState l a).sec.phase = .ready) ∧
    (inState 3 true).sec.reprov.toNat < 3 ∧ (inState 1 false).sec.aik = false ∧ State.reset.asz.busy = true := by decide +kernel

/-- A token of a signer for the part and session of hosted, and one for another session. -/
def tokenOf (key : TokenKey) : Token := { verifies := true, key := key, device := 0, nonce := 0 }
def strangeToken : Token := { tokenOf .root with nonce := 1 }
/-- Hosted while the die-to-die link trains. -/
def hostedTraining : State := { hosted with fab := { hosted.fab with d2dTraining := true } }
theorem witness_tokens : (tokenOf .root).verifies = true ∧ (tokenOf .root).device = hosted.sec.device ∧ (tokenOf .root).nonce = hosted.sec.nonce ∧
    (tokenOf .assize).key = .assize ∧ hosted.keyReadable = true ∧ (inState 1 true).keyReadable = true ∧ (inState 0 true).keyReadable = false ∧
    strangeToken.nonce ≠ hosted.sec.nonce ∧
    (let l : List Byte := [0, 0, 3, 0, 1, 2, 3]; 4 < l.length ∧ l.take 2 = [0, 0] ∧ leNat ((l.drop 2).take 2) + 4 = l.length) ∧
    ¬ leNat ((([0, 0, 3, 0, 1, 2] : List Byte).drop 2).take 2) + 4 = 6 ∧
    hostedTraining.fab.d2dTraining = true ∧ hosted.fab.d2dTraining = false ∧ hostedTraining.hostUp = true ∧ hosted.asz.busy = false ∧
    (inState 1 true).sec.aik = true ∧ { (inState 1 true).asz with busy := true }.busy = true ∧ hosted.sec.sessionKeys = true := by decide +kernel

/-- An open lid loop not yet armed again; the TAP driving the pins. -/
def closedLately : State := { hosted with sec := { hosted.sec with tamperArmed := false, tamperClosedAt := some 0 } }
def tapped : State := { hosted with sec := { hosted.sec with tap := 3 } }
theorem witness_triggers : hosted.sec.tamperOpen = false ∧ hosted.sec.tamperArmed = true ∧ closedLately.sec.tamperArmed = false ∧
    closedLately.sec.tamperClosedAt = some 0 ∧ closedLately.ns < 0 + 1000000 ∧ hosted.sec.lcs ≠ 3 ∧ hosted.sec.tap.toNat < 3 ∧
    (inState 3 true).sec.lcs = 3 ∧ 3 ≤ tapped.sec.tap.toNat ∧
    5 < { hosted.sec with tap := 6 }.tap.toNat ∧ tapped.sec.tap.toNat ≤ 5 ∧
    hosted.sec.takes { version := 7, verified := true, evaluation := false } = true ∧ hosted.sec.bootFail = false := by decide +kernel

end Sys2Proof.Tests
end

section
/-! HALT (03 R72): the cause its code raises, what a halt at issue leaves of the cores and of memory (03 R71, R75), and O16 from both. -/

namespace Sys2Proof.Machine

/-! ## What the bookkeeping around a halt leaves as it was -/

/-- Memory is the same, and every core but for its message unit and its assize fields: what closing a core, disarming a transaction, records and events leave. -/
structure CoresStay (s t : State) : Prop where
  mem : t.mem = s.mem
  core : ∀ d, t.core d = { s.core d with mu := (t.core d).mu, cfg := (t.core d).cfg }

theorem CoresStay.refl (s : State) : CoresStay s s := ⟨rfl, fun _ => rfl⟩

theorem CoresStay.after {s t u : State} (k : CoresStay t u) (h : CoresStay s t) : CoresStay s u :=
  ⟨k.mem.trans h.mem, fun d => by rw [k.core d, h.core d]⟩

theorem CoresStay.of_eq {s t : State} (hm : t.mem = s.mem) (hc : t.cores = s.cores) : CoresStay s t :=
  ⟨hm, fun d => by simp only [State.core, hc]⟩

theorem CoresStay.ite {s t u : State} {p : Prop} [Decidable p] (h : CoresStay s t) (k : CoresStay s u) : CoresStay s (if p then t else u) := by
  split <;> assumption

theorem CoresStay.foldl {α : Type} {f : State → α → State} (hf : ∀ s x, CoresStay s (f s x)) :
    ∀ (l : List α) (s : State), CoresStay s (l.foldl f s)
  | [], s => .refl s
  | x :: l, s => (CoresStay.foldl hf l (f s x)).after (hf s x)

/-- An update of a core that neither reads nor writes its message unit and assize fields keeps the agreement of two states. -/
theorem CoresStay.modCore {s t : State} (h : CoresStay s t) (c : CoreId) (f : Core → Core)
    (hf : ∀ k mu cfg, f { k with mu := mu, cfg := cfg } = { f k with mu := mu, cfg := cfg }) :
    CoresStay (s.modCore c f) (t.modCore c f) := by
  refine ⟨h.mem, fun d => ?_⟩
  by_cases hd : d = c
  · subst hd
    rw [core_modCore_self, core_modCore_self, h.core d, hf]
  · rw [core_modCore_ne _ _ _ _ hd, core_modCore_ne _ _ _ _ hd]
    exact h.core d

theorem withNet_coresStay (s : State) (net : List Msg) : CoresStay s { s with net := net } := .of_eq rfl rfl

theorem modPart_coresStay (s : State) (p : PartId) (f : Part → Part) : CoresStay s (s.modPart p f) := .of_eq rfl rfl

theorem modMu_coresStay (s : State) (c : CoreId) (f : MessageUnit → MessageUnit) : CoresStay s (s.modMu c f) := by
  refine ⟨rfl, fun d => ?_⟩
  by_cases hd : d = c
  · subst hd
    rw [core_modMu_self]
  · rw [core_modMu_ne _ _ _ _ hd]

theorem modCfg_coresStay (s : State) (c : CoreId) (f : CoreConfig → CoreConfig) : CoresStay s (s.modCfg c f) := by
  refine ⟨rfl, fun d => ?_⟩
  by_cases hd : d = c
  · subst hd
    rw [core_modCfg_self]
  · rw [core_modCfg_ne _ _ _ _ hd]

theorem raise_coresStay (s : State) (v : Nat) : CoresStay s (s.raise v) := by
  unfold State.raise
  exact .ite (.of_eq rfl rfl) (.of_eq rfl rfl)

theorem event_coresStay (s : State) (type : Nat) (sev : Fin 8) (p : Option PartId) (c : Option CoreId) (body : List Byte) (v : Option PartId) :
    CoresStay s (s.event type sev p c body v) := .of_eq rfl rfl

theorem rrNote_coresStay (s : State) (p : PartId) (type core : Nat) (payload : List Byte) (pos : Option Nat) :
    CoresStay s (s.rrNote p type core payload pos) := by
  unfold State.rrNote
  exact .ite (.ite (.of_eq rfl rfl) (.of_eq rfl rfl)) (.refl s)

theorem noteHold_coresStay (s : State) (p : PartId) (h : Hold) : CoresStay s (s.noteHold p h) := by
  unfold State.noteHold
  exact .ite (.refl s) (rrNote_coresStay ..)

/-! ### Messages of a core that closes (11 R271) -/

theorem releaseReq_coresStay (s : State) (m : Msg) : CoresStay s (s.releaseReq m) := by
  unfold State.releaseReq
  split
  · exact modMu_coresStay ..
  · exact .of_eq rfl rfl

theorem returnCredit_coresStay (s : State) (m : Msg) : CoresStay s (s.returnCredit m) := by
  unfold State.returnCredit
  split
  · exact .refl s
  · split
    · exact .of_eq rfl rfl
    · exact .refl s

theorem release1_coresStay (s : State) (m : Msg) : CoresStay s (s.release1 m) := by
  unfold State.release1 State.freeEntry
  refine .ite (releaseReq_coresStay s m) (.ite (.of_eq rfl rfl) ?_)
  exact (returnCredit_coresStay ..).after (.of_eq rfl rfl)

theorem dropHeld_coresStay (s : State) (c : CoreId) : CoresStay s (s.dropHeld c) := by
  unfold State.dropHeld
  exact (CoresStay.foldl releaseReq_coresStay _ _).after (.of_eq rfl rfl)

theorem refuseAll_coresStay (s : State) (l : List Msg) : CoresStay s (s.refuseAll l) := by
  unfold State.refuseAll
  exact .foldl (fun s m => (withNet_coresStay (s.release1 m) _).after (release1_coresStay s m)) l s

theorem closeNet_coresStay (s : State) (c : CoreId) : CoresStay s (s.closeNet c) := by
  unfold State.closeNet
  exact (modMu_coresStay ..).after <| (refuseAll_coresStay ..).after <| (CoresStay.foldl releaseReq_coresStay _ _).after (.of_eq rfl rfl)

theorem unsend_coresStay (s : State) (n : PortId) (m : Msg) : CoresStay s (s.unsend n m) := by
  unfold State.unsend
  exact (releaseReq_coresStay ..).after (.of_eq rfl rfl)

theorem closePorts_coresStay (s : State) (c : CoreId) : CoresStay s (s.closePorts c) := by
  unfold State.closePorts
  refine .foldl (fun s n => .ite (.refl s) ?_) _ _
  exact (CoresStay.foldl (fun s x => unsend_coresStay s n (slotMsg x)) _ _).after (.of_eq rfl rfl)

theorem closeCore_coresStay (s : State) (c : CoreId) : CoresStay s (s.closeCore c) := by
  unfold State.closeCore
  exact (modMu_coresStay ..).after <| (withNet_coresStay ..).after <| (CoresStay.foldl returnCredit_coresStay _ _).after <|
    (closePorts_coresStay ..).after <| (closeNet_coresStay ..).after <| (CoresStay.foldl releaseReq_coresStay _ _).after <|
    dropHeld_coresStay ..

/-! ### Its partition (13 R323, 03 R74) -/

theorem txnOutcome_coresStay (s : State) (p : PartId) (result icount : Nat) : CoresStay s (s.txnOutcome p result icount) := by
  unfold State.txnOutcome
  split
  · exact .refl s
  · have disarm : ∀ t : State, CoresStay t (if result = 1 then t
        else (t.coresOf p).foldl (fun s c => s.modCfg c (fun g => { g with armedCode := none })) t) := fun t =>
      .ite (.refl t) (.foldl (fun s c => modCfg_coresStay s c _) _ _)
    exact (raise_coresStay ..).after <| (event_coresStay ..).after <| (disarm _).after (modPart_coresStay ..)

theorem allHalted_coresStay (s : State) (p : PartId) : CoresStay s (s.allHalted p) := by
  unfold State.allHalted
  exact .ite (modPart_coresStay ..) (.refl s)

theorem haltEvents_coresStay (s : State) (p : PartId) : CoresStay s (s.haltEvents p) := by
  unfold State.haltEvents
  exact (modPart_coresStay ..).after <| (CoresStay.foldl (fun _ _ => event_coresStay ..) _ _).after (event_coresStay ..)

/-! ## What a halt at issue does to its core (03 R71, R75) -/

/-- A core that has halted with a halt record. -/
def Core.haltedWith (k : Core) (r : HaltRecord) : Core :=
  { k with ctl := { k.ctl with halted := true, waiting := false, deadline := none }, halt := r }

/-- The core of a halt, not halted before, has halted with the halt's record; the rest is bookkeeping. -/
theorem haltNow_halts {s : State} {h : HaltFound} (hh : (s.core h.core).ctl.halted = false) (p : PartId) (atIssue : Bool) :
    CoresStay (s.modCore h.core (fun k => k.haltedWith (s.haltRecord (s.part p) h))) (s.haltNow p h atIssue) := by
  have handlerNote : CoresStay s (if h.handler then
      s.rrNote p 6 h.core.val (s.haltRecord (s.part p) h).bytes (some (s.part p).haltPosition) else s) :=
    .ite (rrNote_coresStay ..) (.refl s)
  have endNote : ∀ t : State, CoresStay t (if (s.part p).pstate == .running then
      ((s.part p).holds.foldl (fun s h => s.noteHold p h) t).rrNote p 7 0xFF (s.part p).endPayload (some (s.part p).haltPosition) else t) :=
    fun t => .ite ((rrNote_coresStay ..).after (.foldl (fun s h => noteHold_coresStay s p h) _ _)) (.refl t)
  have closing : ∀ t : State, CoresStay t (((t.closeCore h.core).txnOutcome p 3 0).allHalted p) := fun t =>
    (allHalted_coresStay ..).after <| (txnOutcome_coresStay ..).after (closeCore_coresStay ..)
  unfold State.haltNow
  rw [hh]
  exact (CoresStay.ite (haltEvents_coresStay ..) (.refl _)).after <| (closing _).after <|
    .modCore ((modPart_coresStay ..).after <| (endNote _).after handlerNote) h.core _ (fun _ _ _ => rfl)

/-- A slot instruction halts its core for the first failing check. -/
theorem issueSlot_halts {c : CoreId} {causes : List Cause} {effect : State → State} {s : State} {x : Cause} (hi : s.issues c = true)
    (hx : firstCause causes = some x) : issueSlot c causes effect s = .next (s.haltAt c x) := by
  simp [issueSlot, hi, hx]

/-- A core that issues belongs to a partition and has not halted. -/
theorem partOf_of_issues {s : State} {c : CoreId} (h : s.issues c = true) : ∃ p, s.partOf c = some p ∧ (s.core c).ctl.halted = false := by
  unfold State.issues at h
  cases hp : s.partOf c with
  | none => simp [hp] at h
  | some p =>
    simp only [hp, Bool.and_eq_true, Bool.not_eq_true'] at h
    obtain ⟨⟨-, running⟩, -⟩ := h
    exact ⟨p, rfl, running⟩

/-- A cause as the halt at issue that it makes. -/
def Cause.found (x : Cause) (s : State) (c : CoreId) : HaltFound :=
  { core := c, inflight := false, slot := x.slot, reason := x.reason, addr := (s.core c).ctl.pc, detail := x.detail, handler := false }

/-- A halt at issue leaves its core halted with the record of its cause. -/
theorem haltAt_halts {s : State} {c : CoreId} (hi : s.issues c = true) (x : Cause) :
    ∃ p, s.partOf c = some p ∧
      CoresStay (s.modCore c (fun k => k.haltedWith (s.haltRecord (s.part p) (x.found s c)))) (s.haltAt c x) := by
  obtain ⟨p, hp, hh⟩ := partOf_of_issues hi
  refine ⟨p, hp, ?_⟩
  have now : s.haltAt c x = s.haltNow p (x.found s c) true := by
    simp [State.haltAt, State.haltCore, hp, Cause.found]
  rw [now]
  exact haltNow_halts (h := x.found s c) hh p true

/-! ## The cause of HALT (03 R72, R73) -/

/-- The cause that HALT raises by its code; 0x01 to 0x7F count as a reserved field (log 45). -/
def haltCause (code : BitVec 8) : Cause :=
  if code.toNat = 0 then ⟨6, 0, 0x0F, 0⟩ else if code.toNat < 0x80 then Cause.reserved 0 464 else ⟨6, 0, code.toNat, 0⟩

/-- HALT's field is the whole code: the bits outside it are 0. -/
theorem reservedBits_haltWord (slot base : Nat) (code : BitVec 8) : reservedBits slot base (0#32 ++ code) (maskOf 40 [(7, 0)]) = [] := by
  have mask : ~~~maskOf 40 [(7, 0)] = BitVec.allOnes 32 ++ 0#8 := by decide
  have bad : (0#32 ++ code) &&& ~~~maskOf 40 [(7, 0)] = 0 := by
    rw [mask, BitVec.and_append, BitVec.zero_and, BitVec.and_zero]
    rfl
  simp only [reservedBits, bad, if_true]

theorem fld_haltWord (code : BitVec 8) : fld (0#32 ++ code) 7 0 = code.toNat :=
  congrArg BitVec.toNat BitVec.extractLsb'_append_eq_right

theorem opc48_append (opc : BitVec 8) (w : BitVec 40) : opc48 (opc ++ w) = opc.toNat := by
  have field : (opc ++ w).extractLsb' 40 8 = opc := by
    rw [BitVec.extractLsb'_append_eq_of_le (Nat.le_refl 40)]
    exact BitVec.extractLsb'_eq_self
  exact congrArg BitVec.toNat field

theorem ctlCauses_halt (u : ControlUnit) (y : SyncUnit) (code : BitVec 8) : ctlCauses u y ((0x01 : BitVec 8) ++ (0#32 ++ code)) = [haltCause code] := by
  have opc : opc48 ((0x01 : BitVec 8) ++ (0#32 ++ code)) = 0x01 := opc48_append ..
  have word : ((0x01 : BitVec 8) ++ (0#32 ++ code)).extractLsb' 0 40 = 0#32 ++ code := BitVec.extractLsb'_append_eq_right
  simp only [ctlCauses, opc, ctlMask, word, reservedBits_haltWord, fld_haltWord, List.nil_append, haltCause]
  split
  · rfl
  · split <;> rfl

/-- HALT's reason as R72 gives it. -/
theorem haltCause_reason (code : BitVec 8) :
    BitVec.ofNat 8 (haltCause code).reason = if code = 0 then 0x0F else if code.toNat < 0x80 then 0x02 else code := by
  have zero : code.toNat = 0 ↔ code = 0 := (BitVec.toNat_eq (y := 0#8)).symm
  simp only [haltCause, zero]
  split
  · rfl
  · split
    · rfl
    · exact BitVec.ofNat_toNat ..

theorem haltCause_slot (code : BitVec 8) : (haltCause code).slot = 0 := by
  unfold haltCause
  split
  · rfl
  · split <;> rfl

/-- HALT of a core that issues halts it at issue for HALT's cause. -/
theorem exec_halt {s : State} {c : CoreId} (hi : s.issues c = true) (code : BitVec 8) :
    exec (.halt c (0#32 ++ code)) s = .next (s.haltAt c (haltCause code)) := by
  have cause : firstCause (ctlCauses (s.core c).ctl (s.core c).syn ((0x01 : BitVec 8) ++ (0#32 ++ code))) = some (haltCause code) := by
    rw [ctlCauses_halt]
    rfl
  have meaning : exec (.halt c (0#32 ++ code)) s = execHalt c (0#32 ++ code) s := rfl
  rw [meaning, execHalt, issueControl]
  exact issueSlot_halts hi cause

/-- Settles O16: HALT's cause by its code, then the record of a halt at issue and what it leaves. -/
theorem haltRecordsItsReason : Obligations.HaltRecordsItsReason := by
  unfold Obligations.HaltRecordsItsReason
  intro s c code hi
  obtain ⟨p, -, stay⟩ := haltAt_halts hi (haltCause code)
  refine ⟨s.haltAt c (haltCause code), exec_halt hi code, ?_⟩
  have core := stay.core c
  rw [core_modCore_self] at core
  dsimp only
  rw [core]
  exact ⟨rfl, rfl, rfl, congrArg (BitVec.ofNat 3) (haltCause_slot code), rfl, haltCause_reason code, rfl, rfl, rfl, rfl, stay.mem⟩

end Sys2Proof.Machine
end

section
/-! Integer lanes of the vector engine (07 R164, R166, R170-R172): elements of registers, the operations on one element, a result put in flight, and O40 from them. -/

namespace Sys2Proof.Machine

/-! ## Bits of packed numbers -/

/-- Bit i of the lane l of packed lanes of w bits. -/
theorem testBit_ofSubLanes {w i : Nat} (hi : i < w) : ∀ (xs : List Nat) (l : Nat),
    (ofSubLanes w xs).testBit (w * l + i) = (xs.getD l 0).testBit i
  | [], l => by simp [ofSubLanes]
  | x :: xs, l => by
    have low : x % 2 ^ w < 2 ^ w := Nat.mod_lt _ (Nat.two_pow_pos w)
    have unpack : ofSubLanes w (x :: xs) = 2 ^ w * ofSubLanes w xs + x % 2 ^ w := Nat.add_comm ..
    rw [unpack, Nat.testBit_two_pow_mul_add _ low]
    cases l with
    | zero => simp [hi, Nat.testBit_mod_two_pow]
    | succ l =>
      have above : ¬ w * (l + 1) + i < w := by rw [Nat.mul_succ]; omega
      have rest : w * (l + 1) + i - w = w * l + i := by rw [Nat.mul_succ]; omega
      rw [if_neg above, rest, testBit_ofSubLanes hi xs l, List.getD_cons_succ]

/-- Sub-lane k of packed sub-lanes of n bits. -/
theorem ofNat_ofSubLanes_div {n : Nat} (xs : List Nat) (k : Nat) :
    BitVec.ofNat n (ofSubLanes n xs / 2 ^ (n * k)) = BitVec.ofNat n (xs.getD k 0) := by
  refine BitVec.eq_of_getLsbD_eq fun i hi => ?_
  rw [BitVec.getLsbD_ofNat, BitVec.getLsbD_ofNat, Nat.testBit_div_two_pow, Nat.add_comm i, testBit_ofSubLanes hi]

/-- The n bits at sub-lane k of lane l of a register from its lanes. -/
theorem extract_ofLanes {n l k : Nat} (hl : l < 512) (hk : n * k + n ≤ 32) (xs : List Nat) :
    (ofLanes xs).extractLsb' (32 * l + n * k) n = BitVec.ofNat n (xs.getD l 0 / 2 ^ (n * k)) := by
  have packed : ofLanes xs = BitVec.ofNat 16384 (ofSubLanes 32 xs) := rfl
  refine BitVec.eq_of_getLsbD_eq fun i hi => ?_
  have inside : 32 * l + (n * k + i) < 16384 := by omega
  have inLane : n * k + i < 32 := by omega
  rw [packed, BitVec.getLsbD_extractLsb', BitVec.getLsbD_ofNat, BitVec.getLsbD_ofNat, Nat.add_assoc, testBit_ofSubLanes inLane,
    Nat.testBit_div_two_pow, Nat.add_comm i, decide_eq_true inside, Bool.true_and]

/-- The number in sub-lane k of lane l of a register. -/
theorem subLane_toNat {n l k : Nat} (hk : n * k + n ≤ 32) (v : BitVec 16384) :
    (v.extractLsb' (32 * l) 32).toNat / 2 ^ (n * k) % 2 ^ n = (v.extractLsb' (32 * l + n * k) n).toNat := by
  refine Nat.eq_of_testBit_eq fun i => ?_
  by_cases hi : i < n
  · have inLane : i + n * k < 32 := by omega
    rw [Nat.testBit_mod_two_pow, Nat.testBit_div_two_pow, BitVec.testBit_toNat, BitVec.testBit_toNat, BitVec.getLsbD_extractLsb',
      BitVec.getLsbD_extractLsb', decide_eq_true hi, decide_eq_true inLane, Nat.add_comm i, Nat.add_assoc, Bool.true_and, Bool.true_and]
  · simp [Nat.testBit_mod_two_pow, hi]

theorem bit_ofBools {i : Nat} (hi : i < 512) (l : List Bool) : bit (ofBools l) i = l.getD i false := by
  have packed : ofBools l = BitVec.ofNat 512 (ofSubLanes 1 (l.map Bool.toNat)) := by
    rw [ofSubLanes, List.foldr_map]
    simp [ofBools, Nat.mod_eq_of_lt (Bool.toNat_lt _)]
  have entry : (l.map Bool.toNat).getD i 0 = (l.getD i false).toNat := List.getD_map l false Bool.toNat
  have digit := testBit_ofSubLanes (w := 1) (i := 0) Nat.one_pos (l.map Bool.toNat) i
  rw [Nat.one_mul, Nat.add_zero, entry] at digit
  rw [bit, packed, BitVec.getLsbD_ofNat, digit, decide_eq_true hi, Bool.true_and]
  cases l.getD i false <;> rfl

/-! ## Operand a (07 R170) -/

/-- Operand a as one word: a register, or what the four matrix engines present, the first lowest. -/
def Core.wordA (k : Core) (w : BitVec 56) : BitVec 16384 :=
  if bit w 35 then (k.mx[3].present.getD 0 ++ k.mx[2].present.getD 0 ++ k.mx[1].present.getD 0 ++ k.mx[0].present.getD 0).setWidth 16384
  else k.vec.v[vVa w]

/-- The first n lanes of a word. -/
def lanesOf {w : Nat} (n : Nat) (v : BitVec w) : List Nat := (List.range n).map (fun l => (v.extractLsb' (32 * l) 32).toNat)

theorem lanesOf_append {u w n m : Nat} (hi : BitVec u) (lo : BitVec w) (hw : w = 32 * n) :
    lanesOf (n + m) (hi ++ lo) = lanesOf n lo ++ lanesOf m hi := by
  subst hw
  unfold lanesOf
  rw [List.range_add, List.map_append, List.map_map]
  congr 1
  · refine List.map_congr_left fun l hl => ?_
    have below : 32 * l + 32 ≤ 32 * n := by have := List.mem_range.1 hl; omega
    rw [BitVec.extractLsb'_append_eq_of_add_le below]
  · refine List.map_congr_left fun l _ => ?_
    have above : 32 * n ≤ 32 * (n + l) := by omega
    have rest : 32 * (n + l) - 32 * n = 32 * l := by omega
    rw [Function.comp_apply, BitVec.extractLsb'_append_eq_of_le above, rest]

/-- The drain input: of each engine the lanes of its chunk, or of 0. -/
theorem drainInput_eq (k : Core) : k.drainInput = k.mx.toList.flatMap (fun m => lanesOf 128 (m.present.getD 0)) := by
  unfold Core.drainInput
  congr 1
  funext m
  cases m.present with
  | some ch => rfl
  | none => simp [lanesOf, List.map_const']

theorem toList_four {α : Type} (v : Vector α 4) : v.toList = [v[0], v[1], v[2], v[3]] := by
  obtain ⟨⟨l⟩, hl⟩ := v
  match l, hl with
  | [_, _, _, _], _ => rfl

theorem operandA_eq_lanes (k : Core) (w : BitVec 56) : k.operandA w = lanes (k.wordA w) := by
  unfold Core.operandA Core.wordA vSa
  split
  · have whole : ∀ v : BitVec 16384, lanes (v.setWidth 16384) = lanesOf (128 + (128 + (128 + 128))) v := fun v => by
      rw [BitVec.setWidth_eq]
      rfl
    rw [whole, lanesOf_append _ _ rfl, lanesOf_append _ _ rfl, lanesOf_append _ _ rfl, drainInput_eq, toList_four]
    simp only [List.flatMap_cons, List.flatMap_nil, List.append_nil]
  · rfl

/-! ## The operation on one element (07 R166, R172) -/

/-- The opcodes of the integer and bitwise operations. -/
def integerOpcodes : List Nat := [0x08, 0x09, 0x0A, 0x0C, 0x0D, 0x0E, 0x0F, 0x10, 0x11, 0x12, 0x13, 0x14, 0x15]

/-- The operation of an integer opcode on two words: what the model's numbers stand for. -/
def wordOp (n opc : Nat) : BitVec n → BitVec n → BitVec n :=
  match opc with
  | 0x08 => fun a b => a + b
  | 0x09 => fun a b => a - b
  | 0x0A => fun a b => a * b
  | 0x0C => fun a b => if a.toInt ≤ b.toInt then a else b
  | 0x0D => fun a b => if a.toInt ≤ b.toInt then b else a
  | 0x0E => fun a _ => if a.toInt < 0 then -a else a
  | 0x0F => fun a _ => -a
  | 0x10 => fun a b => a &&& b
  | 0x11 => fun a b => a ||| b
  | 0x12 => fun a b => a ^^^ b
  | 0x13 => fun a b => a <<< (b.toNat % n)
  | 0x14 => fun a b => a >>> (b.toNat % n)
  | _ => fun a b => a.sshiftRight (b.toNat % n)

theorem sext_toNat {n : Nat} (hn : 0 < n) (a : BitVec n) : sext n a.toNat = a.toInt := by
  have half : 2 ^ n = 2 * 2 ^ (n - 1) := (mul_pow_sub_one hn.ne' 2).symm
  have below : a.toNat < 2 ^ (n - 1) ↔ 2 * a.toNat < 2 ^ n := by omega
  simp [sext, BitVec.toInt_eq_toNat_cond, Nat.mod_eq_of_lt a.isLt, below]

/-- The model's operation on numbers is the operation on words, modulo 2^n. -/
theorem ofNat_intOp {n opc : Nat} (hn : 0 < n) (h : opc ∈ integerOpcodes) (a b : BitVec n) :
    BitVec.ofNat n (intOp opc n a.toNat b.toNat) = wordOp n opc a b := by
  have read {x : BitVec n} {v : Nat} (e : x.toNat = v) : BitVec.ofNat n v = x := by
    rw [← e, BitVec.ofNat_toNat, BitVec.setWidth_eq]
  fin_cases h <;> simp only [intOp, wordOp, sext_toNat hn]
  · exact read (BitVec.toNat_add a b)
  · have before : a.toNat + 2 ^ n - b.toNat = 2 ^ n - b.toNat + a.toNat := by have := b.isLt; omega
    exact read (before ▸ BitVec.toNat_sub a b)
  · exact read (BitVec.toNat_mul a b)
  · split <;> exact read rfl
  · split <;> exact read rfl
  · split
    · exact read (BitVec.toNat_neg a)
    · exact read rfl
  · exact read (BitVec.toNat_neg a)
  · exact read (BitVec.toNat_and a b)
  · exact read (BitVec.toNat_or a b)
  · exact read (BitVec.toNat_xor a b)
  · exact read (by rw [BitVec.toNat_shiftLeft, Nat.shiftLeft_eq])
  · exact read (by rw [BitVec.toNat_ushiftRight, Nat.shiftRight_eq_div_pow])
  · exact read (by simp [BitVec.sshiftRight, BitVec.toNat_ofInt, Int.shiftRight_eq_div_pow])

/-- The integer element types (07 R164): their width, none of them a float type, and the latency of the integer operations on them (07 R166). -/
theorem integerType_spec {ty n : Nat} (h : (ty, n) ∈ [(1, 32), (4, 16), (5, 8)]) :
    tyBits ty = n ∧ isFloat ty = false ∧ 0 < n ∧ ∀ opc ∈ integerOpcodes, vecLatency opc ty = 2 := by
  fin_cases h <;> decide

/-! ## One lane and all lanes (07 R164, R171) -/

/-- A lane of an integer operation: the operation in each sub-lane, and no flag. -/
theorem laneOp_integer {ty n : Nat} (hty : tyBits ty = n) (hf : isFloat ty = false) (opc a b c : Nat) :
    laneOp opc ty a b c = (ofSubLanes n ((List.range (32 / n)).map (fun k => intOp opc n (a / 2 ^ (n * k) % 2 ^ n) (b / 2 ^ (n * k) % 2 ^ n))), 0) := by
  subst hty
  simp [laneOp, subLanes, List.zip_map', hf, List.foldl_map, Function.comp_def]

/-- The lanes of an integer instruction, from its operands' lanes. -/
theorem vecLanes_integer {opc : Nat} (h : opc ∈ integerOpcodes) (k : Core) (w : BitVec 56) :
    k.vecLanes opc w = .of ((List.range 512).map (fun l => laneOp opc (vTy w) ((k.wordA w).extractLsb' (32 * l) 32).toNat
      (k.vec.v[vVb w].extractLsb' (32 * l) 32).toNat (k.vec.v[vVc w].extractLsb' (32 * l) 32).toNat)) := by
  have elementwise : k.vecLanes opc w = .of (((k.operandA w).zip ((lanes k.vec.v[vVb w]).zip (lanes k.vec.v[vVc w]))).map
      (fun x => laneOp opc (vTy w) x.1 x.2.1 x.2.2)) := by
    fin_cases h <;> rfl
  rw [elementwise, operandA_eq_lanes, lanes, lanes, lanes, List.zip_map', List.zip_map', List.map_map]
  rfl

/-- The entry of a lane in a list made lane by lane. -/
theorem getD_map_range {α : Type} {N l : Nat} (hl : l < N) (g : Nat → α) (d : α) : ((List.range N).map g).getD l d = g l := by
  simp [List.getD_eq_getElem?_getD, hl]

/-- Entries by lane, with 0 in the lanes left out. -/
def keepLanes (keep : Nat → Bool) (xs : List Nat) : List Nat := xs.zipIdx.map (fun x => if keep x.2 then x.1 else 0)

theorem getD_keepLanes {N l : Nat} (hl : l < N) (keep : Nat → Bool) (g : Nat → Nat) :
    (keepLanes keep ((List.range N).map g)).getD l 0 = if keep l then g l else 0 := by
  simp [keepLanes, List.getD_eq_getElem?_getD, hl]

/-- Whether a lane is active (07 R171). -/
def Core.laneActive (k : Core) (w : BitVec 56) (l : Nat) : Bool := !bit w 28 || bit k.vec.q[vMq w] l

/-- The element m of n bits lies in one lane. -/
theorem element_place {ty n m : Nat} (ht : (ty, n) ∈ [(1, 32), (4, 16), (5, 8)]) (hm : m < 16384 / n) :
    n * m / 32 < 512 ∧ ∃ j, n * m = 32 * (n * m / 32) + n * j ∧ j < 32 / n ∧ n * j + n ≤ 32 := by
  simp only [List.mem_cons, Prod.mk.injEq, List.not_mem_nil, or_false] at ht
  obtain ⟨-, rfl⟩ | ⟨-, rfl⟩ | ⟨-, rfl⟩ := ht
  · exact ⟨by omega, 0, by omega⟩
  · exact ⟨by omega, m % 2, by omega⟩
  · exact ⟨by omega, m % 4, by omega⟩

/-- An element of an integer instruction's value: the operation on words, or 0 where its lane is left out. -/
theorem extract_vecLanes_integer {opc n m : Nat} (h : opc ∈ integerOpcodes) (k : Core) (w : BitVec 56)
    (ht : (vTy w, n) ∈ [(1, 32), (4, 16), (5, 8)]) (hm : m < 16384 / n) (keep : Nat → Bool) :
    (ofLanes (keepLanes keep (k.vecLanes opc w).vals)).extractLsb' (n * m) n =
      if keep (n * m / 32) then wordOp n opc ((k.wordA w).extractLsb' (n * m) n) (k.vec.v[vVb w].extractLsb' (n * m) n) else 0 := by
  obtain ⟨hty, hf, hn, -⟩ := integerType_spec ht
  obtain ⟨hl, j, place, hj, fits⟩ := element_place ht hm
  generalize n * m / 32 = l at place hl ⊢
  rw [place, extract_ofLanes hl fits, vecLanes_integer h, LaneResult.of, List.map_map, getD_keepLanes hl]
  split
  · rw [Function.comp_apply, laneOp_integer hty hf, ofNat_ofSubLanes_div, getD_map_range hj, subLane_toNat fits, subLane_toNat fits, ofNat_intOp hn h]
  · rw [Nat.zero_div]
    rfl

/-- Lanes that raise no flag have none in common. -/
theorem flagUnion_zeros (keep : Nat → Bool) (xs : List Nat) (h : ∀ x ∈ xs, x = 0) : flagUnion (keepLanes keep xs) = 0 := by
  have zeros : ∀ y ∈ keepLanes keep xs, y = 0 := by
    intro y hy
    obtain ⟨⟨x, l⟩, hx, rfl⟩ := List.mem_map.1 hy
    have entry : x = 0 := h x (List.fst_mem_of_mem_zipIdx hx)
    simp [entry]
  have fold : (keepLanes keep xs).foldl (fun f x => f ||| x) 0 = 0 :=
    List.foldlRecOn (motive := (· = 0)) _ _ rfl fun f hf y hy => by rw [hf, zeros y hy, Nat.or_zero]
  rw [flagUnion, fold]
  rfl

theorem vecLanes_integer_flags {opc : Nat} (h : opc ∈ integerOpcodes) (k : Core) (w : BitVec 56) (hf : isFloat (vTy w) = false) :
    ∀ x ∈ (k.vecLanes opc w).flags, x = 0 := by
  simp [vecLanes_integer h, LaneResult.of, laneOp_integer rfl hf]

/-- What an integer instruction puts in flight: its active lanes, due 2 counts later, with no flag (07 R166, R168, R171, R172). -/
theorem vecResult_integer {opc n : Nat} (h : opc ∈ integerOpcodes) (k : Core) (w : BitVec 56)
    (ht : (vTy w, n) ∈ [(1, 32), (4, 16), (5, 8)]) (count : Nat) :
    (k.vecResult opc w count).due = count + 2 ∧
    (k.vecResult opc w count).dest = .reg (vVd w) (ofLanes (keepLanes (k.laneActive w) (k.vecLanes opc w).vals))
      (ofBools ((List.range 512).map (fun l => k.laneActive w l || bit w 27))) ∧
    (k.vecResult opc w count).flags = 0 := by
  obtain ⟨-, hf, -, latency⟩ := integerType_spec ht
  have quiet := flagUnion_zeros (k.laneActive w) _ (vecLanes_integer_flags h k w hf)
  have masking : (vMk w && opc != 0x02 && opc != 0x03 && opc != 0x3C) = bit w 28 ∧ (opc != 0x28) = true ∧ (opc == 0x30) = false := by
    fin_cases h <;> simp [vMk]
  obtain ⟨masked, whole, single⟩ := masking
  refine ⟨congrArg (count + ·) (latency opc h), ?_, ?_⟩
  · simp only [Core.vecResult, masked, whole, Bool.true_or, Bool.true_and]
    rfl
  · simp only [Core.vecResult, masked, whole, single, Bool.true_or, Bool.true_and, Bool.or_false]
    exact quiet

/-! ## The instruction in the vector slot (07 R165, 03 R73) -/

theorem opc64_append (opc : BitVec 8) (w : BitVec 56) : opc64 (opc ++ w) = opc.toNat := by
  have field : (opc ++ w).extractLsb' 56 8 = opc := by
    rw [BitVec.extractLsb'_append_eq_of_le (Nat.le_refl 56)]
    exact BitVec.extractLsb'_eq_self
  exact congrArg BitVec.toNat field

theorem modPart_resv_self (s : State) (p : PartId) : s.modPart p (fun q => { q with resv := (s.part p).resv }) = s := by
  have parts : s.parts.set p s.parts[p] = s.parts := Vector.set_getElem_self p.isLt
  exact congrArg (fun x => { s with parts := x }) parts

/-- Claiming accesses changes at most the partition's list of them. -/
theorem claim_resv {s : State} {c : CoreId} {p : PartId} (hp : s.partOf c = some p) (x : Planner) (xs : List Claim) :
    ∃ rs, (s.claim c x xs).2 = s.modPart p (fun q => { q with resv := rs }) := by
  simp only [State.claim, hp]
  split
  · exact ⟨_, (modPart_resv_self s p).symm⟩
  · exact ⟨_, rfl⟩

/-- The effect of an integer instruction: its result in flight and its accesses claimed. -/
theorem vecOp_integer {s : State} {c : CoreId} {p : PartId} {opc : BitVec 8} (hp : s.partOf c = some p) (h : opc.toNat ∈ integerOpcodes) (w : BitVec 56) :
    ∃ rs, s.vecOp c (opc ++ w) = (s.modPart p (fun q => { q with resv := rs })).modVec c
      (fun v => { v with pend := v.pend ++ [(s.core c).vecResult opc.toNat w (s.part p).count] }) := by
  have word : (opc ++ w).extractLsb' 0 56 = w := BitVec.extractLsb'_append_eq_right
  have count : s.countOf c = (s.part p).count := by simp [State.countOf, hp]
  simp only [State.vecOp, opc64_append, word, count]
  generalize opc.toNat = o at h ⊢
  cases vecAccess (s.core c).ctl o w with
  | none => exact ⟨(s.part p).resv, by rw [modPart_resv_self]; fin_cases h <;> rfl⟩
  | some x =>
    obtain ⟨rs, claimed⟩ := claim_resv hp (s.slotPlanner c 3) (vecClaims c (s.part p).count x)
    exact ⟨rs, by rw [← claimed]; fin_cases h <;> rfl⟩

/-- The integer and bitwise instructions with their opcodes. -/
def integerInstrs (c : CoreId) (w : BitVec 56) : List (Instr × BitVec 8) :=
  [(.vadd c w, 0x08), (.vsub c w, 0x09), (.vmul c w, 0x0A), (.vmin c w, 0x0C), (.vmax c w, 0x0D), (.vabs c w, 0x0E), (.vneg c w, 0x0F),
   (.vand c w, 0x10), (.vor c w, 0x11), (.vxor c w, 0x12), (.vshl c w, 0x13), (.vshr c w, 0x14), (.vsra c w, 0x15)]

/-- An integer instruction whose checks pass has its effect. -/
theorem exec_integer {s : State} {c : CoreId} {w : BitVec 56} {i : Instr} {opc : BitVec 8} (h : (i, opc) ∈ integerInstrs c w)
    (hc : Clean s c (s.vecCauses c (opc ++ w))) : opc.toNat ∈ integerOpcodes ∧ exec i s = .next (s.vecOp c (opc ++ w)) := by
  obtain ⟨issues, clean⟩ := hc
  have effect : issueVector c opc w s = .next (s.vecOp c (opc ++ w)) :=
    issueSlot_clean (effect := fun s => s.vecOp c (opc ++ w)) issues clean
  rw [← effect]
  simp only [integerInstrs, List.mem_cons, Prod.mk.injEq, List.not_mem_nil, or_false] at h
  obtain ⟨rfl, rfl⟩ | ⟨rfl, rfl⟩ | ⟨rfl, rfl⟩ | ⟨rfl, rfl⟩ | ⟨rfl, rfl⟩ | ⟨rfl, rfl⟩ | ⟨rfl, rfl⟩ | ⟨rfl, rfl⟩ | ⟨rfl, rfl⟩ |
    ⟨rfl, rfl⟩ | ⟨rfl, rfl⟩ | ⟨rfl, rfl⟩ | ⟨rfl, rfl⟩ := h <;> exact ⟨by decide, rfl⟩

/-- Settles O40: the instruction puts its result in flight, and each element of it is the operation on words. -/
theorem integerLanesWrapAndShift : Obligations.IntegerLanesWrapAndShift := by
  unfold Obligations.IntegerLanesWrapAndShift
  intro s c p w hp i opc n f ht hi hf hc
  obtain ⟨hopc, effect⟩ := exec_integer hi hc
  obtain ⟨rs, inFlight⟩ := vecOp_integer hp hopc w
  obtain ⟨due, dest, flags⟩ := vecResult_integer hopc (s.core c) w ht (s.part p).count
  have word : f = wordOp n opc.toNat := hf
  subst word
  refine ⟨rs, _, _, _, effect.trans (congrArg Host.Outcome.next inFlight), due, dest, flags, fun m hm => ⟨?_, ?_⟩⟩
  · obtain ⟨hl, -⟩ := element_place ht hm
    rw [bit_ofBools hl, getD_map_range hl]
    rfl
  · exact extract_vecLanes_integer hopc (s.core c) w ht hm _

end Sys2Proof.Machine
end
